-- ==== Sys2Proof/Word.lean ====
section
/-! DEFINITION. The byte, the unit of every frame of the FR4 (11 R207 to R210), and the 16-bit word of the check words and of the CRC-16. -/

namespace Sys2Proof

/-- A byte of a frame. -/
abbrev Byte := BitVec 8

/-- A 16-bit word: a check word (02 R30) or a CRC-16 (11 R199). -/
abbrev Word16 := BitVec 16

/-- The payload of a command or response frame (11 R207). -/
abbrev Payload := List Byte

/-- A byte from a natural number, which the callers keep below 256. -/
abbrev byte (n : Nat) : Byte := BitVec.ofNat 8 n

end Sys2Proof
end

