-- ==== Sys2Proof/Machine/Crc.lean ====
section
/-! DEFINITION. The CRC-16 that every frame of the FR4 carries (11 R199), and numbers laid out in bytes high byte first
(11 R207). -/

namespace Sys2Proof.Machine

/-- One bit of the CRC-16: the generator x^16 + x^12 + x^5 + 1, not reflected (11 R199). -/
def crcBit (c : Word16) : Word16 :=
  if c.msb then (c <<< 1) ^^^ 0x1021#16 else c <<< 1

/-- One byte of the CRC-16, most significant bit first (11 R199). -/
def crcByte (c : Word16) (b : Byte) : Word16 :=
  crcBit (crcBit (crcBit (crcBit (crcBit (crcBit (crcBit (crcBit (c ^^^ (b.setWidth 16 <<< 8)))))))))

/-- The CRC-16 of a run of bytes: it starts from all ones and is not inverted at the end (11 R199). -/
def crc16 (bs : List Byte) : Word16 := bs.foldl crcByte 0xFFFF#16

/-- A 16-bit word high byte first. -/
def wordBytes (w : Word16) : List Byte := [w.extractLsb' 8 8, w.extractLsb' 0 8]

/-- A frame: its content and the CRC-16 over all of it, sent high byte first (11 R199). -/
def withCrc (bs : List Byte) : List Byte := bs ++ wordBytes (crc16 bs)

/-- Whether the last two bytes of a frame are the CRC-16 of the bytes before them (11 R199). -/
def crcChecks (frame : List Byte) : Bool :=
  decide (frame.drop (frame.length - 2) = wordBytes (crc16 (frame.take (frame.length - 2))))

/-- A number in one byte. -/
def be1 (n : Nat) : List Byte := [byte n]

/-- A number in two bytes, high byte first. -/
def be2 (n : Nat) : List Byte := [byte (n / 256), byte n]

/-- A number in four bytes, high byte first. -/
def be4 (n : Nat) : List Byte := [byte (n / 16777216), byte (n / 65536), byte (n / 256), byte n]

/-- The number of a run of bytes, high byte first. -/
def ofBytes (bs : List Byte) : Nat := bs.foldl (fun n b => n * 256 + b.toNat) 0

end Sys2Proof.Machine
end

