-- ==== Sys2Proof/Machine/Types.lean ====
section
/-! DEFINITION. The names and records of the FR4: what each block holds, as plain data. No behaviour stands here. -/

namespace Sys2Proof.Machine

/-! ## Things numbered in fours -/

/-- One of four: feeders and settings groups 1 to 4, window slots 1 to 4, curve tables 0 to 3 (00 section 6.1). -/
inductive Ix4 where
  | n1 | n2 | n3 | n4
  deriving DecidableEq, Repr

/-- A feeder, 1 to 4. -/
abbrev Feeder := Ix4
/-- A settings group number, 1 to 4, within a feeder. -/
abbrev GroupNo := Ix4
/-- A curve table number: `n1` is table 0 and `n4` is table 3. -/
abbrev CurveNo := Ix4

/-- Four like things, one for each index. -/
structure Four (α : Type) where
  n1 : α
  n2 : α
  n3 : α
  n4 : α
  deriving DecidableEq, Repr

/-! ## Measurement and elements (01) -/

/-- The five protection elements of a feeder (01 section 1.3). -/
inductive Element where
  | p1 | p2 | e1 | e2 | s1
  deriving DecidableEq, Repr

/-- Five like things, one for each element. -/
structure Five (α : Type) where
  p1 : α
  p2 : α
  e1 : α
  e2 : α
  s1 : α
  deriving DecidableEq, Repr

/-- A timer of the 1 ms time base: stopped, or running with the milliseconds that remain. A running timer that has come
to 0 has run down, and stays so until its expiry is taken or a rule restarts or stops it (log 3). -/
abbrev Timer := Option Nat

/-- A feeder's measurement state (01 section 1.2). -/
inductive MeasState where
  | valid | held | lost
  deriving DecidableEq, Repr

/-- The measurement state of a feeder and its four companions (01 section 1.2). -/
structure Sample where
  state : MeasState
  watch : Timer
  expiries : Nat
  lastSequence : Option Nat
  runCount : Nat
  deriving DecidableEq, Repr

/-- An element record (01 R8). `progress` is the running sum of P1 and E1 and the interval count of P2, E2 and S1. -/
structure ElementRecord where
  pickedUp : Bool
  progress : Nat
  operated : Bool
  takenXE : Option Nat
  deriving DecidableEq, Repr

/-- A calendar minute: year to minute (00 section 5). -/
structure Minute where
  year : Nat
  month : Nat
  day : Nat
  hour : Nat
  minute : Nat
  deriving DecidableEq, Repr

/-- A calendar time: year to second. -/
structure Stamp where
  minute : Minute
  second : Nat
  deriving DecidableEq, Repr

/-- The fault snapshot record of a feeder (01 R23). -/
structure Snapshot where
  element : Element
  others : List Element
  shot : Nat
  time : Option Stamp
  phaseCurrent : Nat
  residual : Nat
  overRange : Bool
  xe : Option Nat
  distance : Option Nat
  deriving DecidableEq, Repr

/-- What the Element Engine holds for a feeder: its elements (01 R8) and its fault snapshot (01 R23). -/
structure Engine where
  elements : Five ElementRecord
  snapshot : Option Snapshot
  deriving DecidableEq, Repr

/-- The quality mark of an interval report (01 R1). -/
inductive Quality where
  | good | questionable | invalid
  deriving DecidableEq, Repr

/-- An interval report that has passed the frame checks of R1 and been clamped by R2. -/
structure Report where
  feeder : Feeder
  sequence : Nat
  ia : Nat
  ib : Nat
  ic : Nat
  ir : Nat
  vr : Nat
  xe : Option Nat
  overRange : Bool
  quality : Quality
  deriving DecidableEq, Repr

/-! ## Settings (02) -/

/-- The settings of one element in a group record (02 R27). `curve`, `tm` and `resetTime` are settings of P1 and E1,
`delay` of P2, E2 and S1, and `vsup` of S1; an element leaves the others unused. -/
structure ElementSettings where
  enabled : Bool
  pickup : Nat
  /-- The active-shot set: bit `n` for shot `n`. -/
  shots : BitVec 5
  workFast : Bool
  curve : CurveNo
  tm : Nat
  resetTime : Nat
  delay : Nat
  vsup : Nat
  deriving DecidableEq, Repr

/-- A group record's content (02 R27). -/
structure Group where
  elements : Five ElementSettings
  shotCount : Nat
  deadTimes : Four Nat
  reclaimTime : Nat
  recloseCeiling : Nat
  huntEnabled : Bool
  huntCeiling : Nat
  testBudget : Nat
  testHoldTime : Nat
  deriving DecidableEq, Repr

/-- A breakpoint of a curve table: multiple of pickup in sixty-fourths, and time in ms (02 R28). -/
structure Breakpoint where
  q : Nat
  t : Nat
  deriving DecidableEq, Repr

/-- A curve table's content: its breakpoints in order (02 R28). -/
structure Curve where
  breakpoints : List Breakpoint
  deriving DecidableEq, Repr

/-- The two fire districts. -/
inductive District where
  | a | b
  deriving DecidableEq, Repr

/-- Two like things, one for each district. -/
structure Pair (α : Type) where
  a : α
  b : α
  deriving DecidableEq, Repr

/-- The level map of a feeder constants record: a group for each level 0 to 5 (02 R29). -/
structure LevelMap where
  l0 : GroupNo
  l1 : GroupNo
  l2 : GroupNo
  l3 : GroupNo
  l4 : GroupNo
  l5 : GroupNo
  deriving DecidableEq, Repr

/-- A feeder constants record's content (02 R29). -/
structure Constants where
  x1 : Nat
  minUncertainty : Nat
  uncertaintyPercent : Nat
  locateThreshold : Nat
  tripFailTime : Nat
  closeFailTime : Nat
  windowTime : Nat
  district : District
  levelMap : LevelMap
  deriving DecidableEq, Repr

/-- The content of a stored record of any kind, as storage gives it back (02 R38, R40). -/
inductive Content where
  | group (g : Group)
  | curve (c : Curve)
  | constants (k : Constants)
  deriving DecidableEq, Repr

/-- A stored record (02 R26): EMPTY with no content, or VALID or FAULTY with content and check word (02 R30). -/
inductive Stored (α : Type) where
  | empty
  | valid (content : α) (check : Word16)
  | faulty (content : α) (check : Word16)
  deriving DecidableEq, Repr

/-- A record of the store, the target of a staging (02 section 2.3). `feeder f` names a constants record. -/
inductive Target where
  | group (f : Feeder) (g : GroupNo)
  | curve (n : CurveNo)
  | feeder (f : Feeder)
  deriving DecidableEq, Repr

/-- The working copy of a curve table: a count and sixteen breakpoints, each set or unset (02 R33). -/
structure CurveDraft where
  count : Option Nat
  qs : List (Option Nat)
  ts : List (Option Nat)
  deriving DecidableEq, Repr

/-- The working copy of a feeder constants record, each field set or unset (02 R33). -/
structure ConstantsDraft where
  x1 : Option Nat
  minUncertainty : Option Nat
  uncertaintyPercent : Option Nat
  locateThreshold : Option Nat
  tripFailTime : Option Nat
  closeFailTime : Option Nat
  windowTime : Option Nat
  district : Option District
  levelMap : List (Option GroupNo)
  deriving DecidableEq, Repr

/-- The target of an open staging with its working copy. A group's working copy has no unset field, since it starts from a
stored group or from the safe group (02 R33). -/
inductive Draft where
  | group (f : Feeder) (g : GroupNo) (copy : Group)
  | curve (n : CurveNo) (copy : CurveDraft)
  | feeder (f : Feeder) (copy : ConstantsDraft)
  deriving DecidableEq, Repr

/-- The staging area (02 section 2.3). -/
inductive Staging where
  | closed
  | opened (d : Draft)
  | committing (d : Draft)
  deriving DecidableEq, Repr

/-- The Settings Store. -/
structure Store where
  groups : Four (Four (Stored Group))
  curves : Four (Stored Curve)
  constants : Four (Stored Constants)
  staging : Staging
  /-- The scrub pointer, 1 to 24 (02 R40). -/
  scrub : Nat
  deriving DecidableEq, Repr

/-! ## Breaker and sequence (03) -/

/-- The two position contacts of a breaker as they stand: `true` is closed (03 section 3.1). -/
structure Contacts where
  a : Bool
  b : Bool
  deriving DecidableEq, Repr

/-- A decoded position (03 R46). -/
inductive Position where
  | closed | opened | travel | invalid
  deriving DecidableEq, Repr

/-- A lockout cause (03 section 3.2). -/
inductive LockoutCause where
  | protection | blocked | closeFail | hostOpen | externalOpen | huntEnd | warmReset | coldReset
  deriving DecidableEq, Repr

/-- A trip origin (03 section 3.2). -/
inductive TripOrigin where
  | protection | hostOpen | huntEnd
  deriving DecidableEq, Repr

/-- A close kind (03 section 3.2). -/
inductive CloseKind where
  | reclose | host
  deriving DecidableEq, Repr

/-- A hunt service (03 section 3.8). -/
inductive HuntService where
  | idle | opening | testClosing | testClosed | restoreClosing
  deriving DecidableEq, Repr

/-- The sequencer state with the fields that have a value in it alone (03 section 3.2): the lockout cause, the trip origin
(kept in BREAKER_FAIL, R50), the onto-fault mark, the close kind and the hunt service. -/
inductive SeqState where
  | closed
  | tripping (origin : TripOrigin) (ontoFault : Bool)
  | deadTime
  | closing (kind : CloseKind)
  | reclaim
  | lockout (cause : LockoutCause)
  | breakerFail (origin : TripOrigin)
  | hunt (service : HuntService)
  deriving DecidableEq, Repr

/-- The sequencer record of a feeder (03 section 3.2). -/
structure Seq where
  state : SeqState
  shots : Nat
  tripElement : Option Element
  tripFail : Timer
  closeFail : Timer
  dead : Timer
  reclaim : Timer
  window : Timer
  tripDrive : Bool
  closeDrive : Bool
  position : Position
  /-- The hunt-test condition (03 R66). -/
  huntTest : Bool
  deriving DecidableEq, Repr

/-! ## Work tags (04) -/

/-- The kind of a work tag (04 R69). -/
inductive TagKind where
  | noReclose | noClose | huntExclude
  deriving DecidableEq, Repr

/-- The authority of a holder (04 R69). -/
inductive Authority where
  | controlRoom | localPanel
  deriving DecidableEq, Repr

/-- A holder: authority and number 1 to 9999 (04 R69). -/
structure Holder where
  authority : Authority
  number : Nat
  deriving DecidableEq, Repr

/-- A work tag record (04 R69). `frozen` is the state: LIVE or FROZEN. -/
structure Tag where
  number : Nat
  feeder : Feeder
  kind : TagKind
  scope : List Nat
  holder : Holder
  placed : Option Stamp
  expiry : Option Minute
  frozen : Bool
  badAttempts : Nat
  deriving DecidableEq, Repr

/-! ## Season calendar (05) -/

/-- The calendar fields while SET (05 R88). -/
structure Clock where
  minute : Minute
  second : Nat
  weekday : Nat
  deriving DecidableEq, Repr

/-- What a carry of the second from 59 to 0 brings besides the new minute: a date change, and the wrap of the year (05 R90, R91). -/
structure Carry where
  dateChange : Bool
  yearWrap : Bool
  deriving DecidableEq, Repr

/-- A district mask. -/
structure Mask where
  a : Bool
  b : Bool
  deriving DecidableEq, Repr

/-- A season window record (05 R94). -/
structure Window where
  startMonth : Nat
  startDay : Nat
  endMonth : Nat
  endDay : Nat
  districts : Mask
  floor : Nat
  enabled : Bool
  deriving DecidableEq, Repr

/-- A declaration (05 R98). -/
structure Declaration where
  level : Nat
  untilMinute : Option Minute
  deriving DecidableEq, Repr

/-- The recurrence of a schedule entry with its when-fields (05 R103). -/
inductive Recurrence where
  | daily (hour minute : Nat)
  | weekly (weekday hour minute : Nat)
  | monthly (day hour minute : Nat)
  | yearly (month day hour minute : Nat)
  | once (at_ : Minute)
  deriving DecidableEq, Repr

/-- The action of a schedule entry (05 R103). -/
inductive Action where
  | declare (districts : Mask) (level : Nat) (duration : Option Nat)
  | lift (districts : Mask)
  deriving DecidableEq, Repr

/-- A schedule entry (05 R103). `repeats` is absent for PERPETUAL. -/
structure Entry where
  recurrence : Recurrence
  action : Action
  repeats : Option Nat
  deriving DecidableEq, Repr

/-- One of the four that take a minute change (05 R91). -/
inductive MinuteTaker where
  | tags | declarations | schedule | windows
  deriving DecidableEq, Repr

/-- Like things under numbers, ascending: sections, devices, schedule slots. A number not listed is EMPTY or not held. -/
abbrev Table (α : Type) := List (Nat × α)

/-- The Season Calendar. -/
structure Calendar where
  /-- The fields while SET; absent while UNSET (05 R88). -/
  clock : Option Clock
  trim : Int
  prescaler : Nat
  /-- The length of the second in progress, in pulses (05 R89). -/
  secondLength : Nat
  windows : Four (Option Window)
  active : Four Bool
  floors : Pair Nat
  declarations : Pair (Option Declaration)
  levels : Pair Nat
  schedule : Table Entry
  deriving DecidableEq, Repr

/-! ## Feeder condition (06) -/

/-- The source of the active group (06 R111). -/
inductive GroupSource where
  | forced | levelMap | fallback | safeSubstitute
  deriving DecidableEq, Repr

/-- A block cause (06 R111). -/
inductive Cause where
  | tagNoReclose | tagNoClose | seasonReclose | seasonHunt | measLost | fallback | restorePending | hostBlock
  deriving DecidableEq, Repr

/-- A block cause set: each cause in it or not (06 R111). -/
structure Causes where
  tagNoReclose : Bool
  tagNoClose : Bool
  seasonReclose : Bool
  seasonHunt : Bool
  measLost : Bool
  fallback : Bool
  restorePending : Bool
  hostBlock : Bool
  deriving DecidableEq, Repr

/-- A hunt exclusion set: the whole feeder, or section numbers in ascending order (06 R111). -/
inductive Exclusion where
  | wholeFeeder
  | sections (numbers : List Nat)
  deriving DecidableEq, Repr

/-- A Feeder Condition record (06 R111), less the host-forced group, which stands among the inputs. `group` is absent for
SAFE. -/
structure Condition where
  level : Nat
  group : Option GroupNo
  source : GroupSource
  causes : Causes
  workMode : Bool
  wish : Bool
  exclusion : Exclusion
  deriving DecidableEq, Repr

/-- The inputs that Permission Logic holds for a feeder (06 R112). `forced` is absent for AUTO. -/
structure Inputs where
  forced : Option GroupNo
  hostBlock : Bool
  restorePending : Bool
  measLost : Bool
  deriving DecidableEq, Repr

/-! ## Section map and location (07) -/

/-- A section record (07 R127). -/
structure Section where
  base : Nat
  limit : Nat
  /-- 0, or the section that feeds it. -/
  parent : Nat
  head : Option Nat
  enabled : Bool
  deriving DecidableEq, Repr

/-- The uncertainty and the window of a location (07 R135). -/
structure Span where
  uncertainty : Nat
  low : Nat
  high : Nat
  deriving DecidableEq, Repr

/-- A location (07 R135): the distance or its absence, and the window or its absence. -/
structure Location where
  distance : Option Nat
  span : Option Span
  deriving DecidableEq, Repr

/-! ## Pole link (09) -/

/-- A device position, desired or acknowledged (09 R164). NONE and UNKNOWN are the absence of one. -/
inductive SwitchPos where
  | opened | closed
  deriving DecidableEq, Repr

/-- A recloser's block, acknowledged as BLOCKED or UNBLOCKED and desired as BLOCK or UNBLOCK (09 R164). -/
inductive BlockPos where
  | blocked | unblocked
  deriving DecidableEq, Repr

/-- The kind of a remote device (09 R164). -/
inductive DeviceKind where
  | switch | recloser
  deriving DecidableEq, Repr

/-- The owner of a device's desired position (09 R164). -/
inductive Owner where
  | host | hunt
  deriving DecidableEq, Repr

/-- The reach of a device (09 R164). -/
inductive Reach where
  | reachable | unreachable | local
  deriving DecidableEq, Repr

/-- An order code (11 R209). -/
inductive OrderCode where
  | status | openSwitch | closeSwitch | blockReclose | unblockReclose
  deriving DecidableEq, Repr

/-- An in-flight order with its reply timer (09 R164, R172). -/
structure Order where
  code : OrderCode
  tag : Nat
  sends : Nat
  timer : Timer
  deriving DecidableEq, Repr

/-- A remote device record (09 R164) less its address, which is its number in the table. A tier-1 record has no relay and a
tier-2 record has one. -/
structure Device where
  feeder : Feeder
  kind : DeviceKind
  relay : Option Nat
  desired : Option SwitchPos
  owner : Owner
  ack : Option SwitchPos
  desiredBlock : Option BlockPos
  ackBlock : Option BlockPos
  posHeld : Bool
  blockHeld : Bool
  inFlight : Option Order
  lastTag : Option Nat
  reach : Reach
  probe : Timer
  /-- The probe timer has expired since it last started and no probe has been issued since (09 R168, class 4). -/
  probeDue : Bool
  deriving DecidableEq, Repr

/-- A frame of the pole link: the clear frame, or an order frame (11 R209). -/
inductive LinkFrame where
  | clear
  | order (address relay : Nat) (code : OrderCode) (tag : Nat)
  deriving DecidableEq, Repr

/-- A class of service (09 R168). -/
inductive ServiceClass where
  | huntPosition | block | hostPosition | probe
  deriving DecidableEq, Repr

/-- The Pole Link. -/
structure Link where
  devices : Table Device
  /-- The frame being sent; absent while the transmitter is IDLE (09 R169). -/
  sending : Option LinkFrame
  carrier : Bool
  clearWaits : Bool
  /-- The addresses whose resends wait, in the order in which their reply timers expired (09 R169). -/
  resends : List Nat
  limit : Nat
  tagCounter : Nat
  /-- The address last chosen in each class, in class order (09 R170). -/
  lastChosen : Four (Option Nat)
  deriving DecidableEq, Repr

/-! ## Earth-fault hunt (08) -/

/-- Why a hunt was abandoned (08 R140). -/
inductive AbandonReason where
  | blocked | budget | link | host | position | reset
  deriving DecidableEq, Repr

/-- The state of a hunt together with what it awaits (08 R140). -/
inductive HuntPhase where
  | isolatingOpen | isolatingDevices
  | testingClose | testingHold
  | restoringOpen | restoringDevices | restoringClose
  | found | cleared
  | abandoned (reason : AbandonReason)
  deriving DecidableEq, Repr

/-- The trouble of a device that ended a hunt (08 R146, R158). -/
inductive DeviceTrouble where
  | refused | local | unreachable | ackOpened | ackClosed
  deriving DecidableEq, Repr

/-- The breaker event that ended a hunt (08 R147, R154, R159). -/
inductive BreakerEvent where
  | notOpen | restoreTrip | breakerFail | closeFail | unaskedOpen | unaskedClose
  deriving DecidableEq, Repr

/-- The abandon detail of a hunt (08 R140). -/
inductive HuntDetail where
  | cause (c : Cause)
  | device (address : Nat) (trouble : DeviceTrouble)
  | breaker (e : BreakerEvent)
  deriving DecidableEq, Repr

/-- The status of a candidate (08 R140). -/
inductive CandidateStatus where
  | pending | healthy | faulted | skipped
  deriving DecidableEq, Repr

/-- An entry of the candidate list (08 R140). -/
structure Candidate where
  number : Nat
  status : CandidateStatus
  deriving DecidableEq, Repr

/-- The hunt record of a feeder (08 R140). -/
structure Hunt where
  phase : HuntPhase
  hostStart : Bool
  candidates : List Candidate
  /-- The place of the current candidate in the list, from 0. -/
  current : Option Nat
  budget : Nat
  used : Nat
  location : Location
  hold : Timer
  isolating : Option Nat
  detail : Option HuntDetail
  /-- The devices named for the current step or restore, ascending: the needed set while DEVICES are awaited (08 R141). -/
  named : List Nat
  deriving DecidableEq, Repr

/-! ## Attention (10) -/

/-- A notice kind, in tie order (10 R185). -/
inductive NoticeKind where
  | supervision | breakerFail | positionAlarm | measLost | recordFaulty | lockout | tagFrozen | trip | huntResult
  | tagExpired | levelChange | linkFault | commitDone
  deriving DecidableEq, Repr

/-- The detail of a POSITION_ALARM (10 R185). -/
inductive AlarmDetail where
  | element (e : Element)
  | invalid | closeFail | positionUnknown | externalOpen | externalClose | unaskedOpen | unaskedClose
  deriving DecidableEq, Repr

/-- Why a record was found faulty (10 R185). -/
inductive FaultyCause where
  | readBack | scrub
  deriving DecidableEq, Repr

/-- The trouble of a LINK_FAULT (10 R185). -/
inductive LinkTrouble where
  | noReply | refused | local
  deriving DecidableEq, Repr

/-- The details of a notice, of the kind whose name they bear (10 R185). -/
inductive Detail where
  | supervision (count : Nat) (latch : Bool)
  | breakerFail (origin : TripOrigin)
  | positionAlarm (d : AlarmDetail)
  | measLost
  | recordFaulty (record : Target) (cause : FaultyCause)
  | lockout (cause : LockoutCause) (shots : Nat)
  | tagFrozen (tag : Nat) (attempt : Holder)
  | trip (element : Element) (shot : Nat)
  | huntResult (final : HuntPhase) (faulted : Option Nat) (isolating : Option Nat) (used : Nat)
  | tagExpired (tag : Nat) (holder : Holder)
  | levelChange (old new : Nat)
  | linkFault (address : Nat) (trouble : LinkTrouble)
  | commitDone (target : Target) (ok : Bool)
  deriving DecidableEq, Repr

/-- The scope of a notice: part-wide, or a feeder (10 R185). -/
inductive Scope where
  | part
  | feeder (f : Feeder)
  deriving DecidableEq, Repr

/-- A notice of the pending set (10 R185). -/
structure Notice where
  scope : Scope
  detail : Detail
  repeats : Nat
  deriving DecidableEq, Repr

/-- The level of each notice kind (10 R186). -/
structure Levels where
  supervision : Nat
  breakerFail : Nat
  positionAlarm : Nat
  measLost : Nat
  recordFaulty : Nat
  lockout : Nat
  tagFrozen : Nat
  trip : Nat
  huntResult : Nat
  tagExpired : Nat
  levelChange : Nat
  linkFault : Nat
  commitDone : Nat
  deriving DecidableEq, Repr

/-- The action of host supervision (10 R191). -/
inductive SupervisionAction where
  | alert | fallback
  deriving DecidableEq, Repr

/-- The Attention Unit. -/
structure Attention where
  /-- The pending notice set, in the order of kind and then scope. -/
  notices : List Notice
  mask : Nat
  levels : Levels
  /-- The attention line nATTN: asserted or negated (10 R188). -/
  line : Bool
  period : Nat
  action : SupervisionAction
  timer : Timer
  expiries : Nat
  deriving DecidableEq, Repr

/-! ## Command port (11) -/

/-- A status code, in the order of the table of 00 section 6.5. -/
inductive Status where
  | ok | frameError | unknownCommand | badField | busy | notFound | full | duplicate | notHolder | frozen | inUse
  | wrongState | blocked | noStaging
  deriving DecidableEq, Repr

/-- A response (11 R201); its length byte and CRC-16 are worked out when it is shifted out. -/
structure Response where
  status : Status
  code : Byte
  payload : Payload
  deriving DecidableEq, Repr

/-- The kind of the start reason record (11 R204). -/
inductive StartKind where
  | cold | warmPin | warmCommand
  deriving DecidableEq, Repr

/-- What the port makes of the next transaction that ends (11 R203, R206): it is judged; it performs the warm reset of a
RESET_PART; or it is one that a reset cut short, whose end is the rise of nCS for which the port waits. -/
inductive PortPhase where
  | ready | resetPending | cut
  deriving DecidableEq, Repr

/-- The Command Port. -/
structure Port where
  buffer : Response
  kind : StartKind
  warmCount : Nat
  marker : Byte
  phase : PortPhase
  deriving DecidableEq, Repr

/-! ## Operands of events -/

/-- What the input pins bring to a reset: the position contacts of the four breakers (03 R46), the carrier detect line (09 R183), the
select line nCS, which is low while a transaction is in progress (11 R206), and the number of second ticks that the crystal's pulses
complete while the reset is being applied (05 R109). -/
structure Pins where
  contacts : Four Contacts
  carrier : Bool
  selected : Bool
  ticks : Nat
  deriving DecidableEq, Repr

/-- What a MINUTE_CHANGE brings: the order in which the four takers of 05 R91 take it, and what storage gave the scrubber at the
tick (02 R40). -/
structure MinuteTick where
  order : List MinuteTaker
  found : Option Content
  deriving DecidableEq, Repr

/-- What performs a warm reset: the nWARM pin, or the transaction after a RESET_PART (11 R203, R204). -/
inductive WarmSource where
  | pin | transaction
  deriving DecidableEq, Repr

end Sys2Proof.Machine
end

