-- ==== Sys2Proof/Syntax.lean ====
section
/-! DEFINITION. The commands of the FR4: one constructor per row of spec/opcode_table.json. -/

namespace Sys2Proof

/-- A command that waits in the queue: a row of spec/opcode_table.json with its operands. The host commands, codes 0 to 62 of 11
R200, carry the payload of their frame, encoded as 11 R207 lays down. -/
inductive Instr where
  /-- NOP (R202). -/
  | nop (payload : Payload)
  /-- RESET_PART (R203). -/
  | resetPart (payload : Payload)
  /-- READ_START_REASON (R205). -/
  | readStartReason (payload : Payload)
  /-- WRITE_MARKER (R205). -/
  | writeMarker (payload : Payload)
  /-- READ_ELEMENTS (R24). -/
  | readElements (payload : Payload)
  /-- OPEN_STAGING (R33). -/
  | openStaging (payload : Payload)
  /-- WRITE_STAGED (R34). -/
  | writeStaged (payload : Payload)
  /-- READ_STAGING (R35). -/
  | readStaging (payload : Payload)
  /-- DISCARD_STAGING (R35). -/
  | discardStaging (payload : Payload)
  /-- COMMIT_STAGING (R36). -/
  | commitStaging (payload : Payload)
  /-- READ_GROUP (R42). -/
  | readGroup (payload : Payload)
  /-- READ_CURVE (R42). -/
  | readCurve (payload : Payload)
  /-- READ_CONSTANTS (R42). -/
  | readConstants (payload : Payload)
  /-- READ_STORE_STATUS (R43). -/
  | readStoreStatus (payload : Payload)
  /-- CLOSE_BREAKER (R60). -/
  | closeBreaker (payload : Payload)
  /-- OPEN_BREAKER (R61). -/
  | openBreaker (payload : Payload)
  /-- CLEAR_BREAKER_FAIL (R51). -/
  | clearBreakerFail (payload : Payload)
  /-- SET_HOST_BLOCK (R62). -/
  | setHostBlock (payload : Payload)
  /-- READ_FEEDER (R63). -/
  | readFeeder (payload : Payload)
  /-- PLACE_TAG (R72). -/
  | placeTag (payload : Payload)
  /-- AMEND_TAG (R74). -/
  | amendTag (payload : Payload)
  /-- RELEASE_TAG (R76). -/
  | releaseTag (payload : Payload)
  /-- SUPERVISOR_RELEASE (R78). -/
  | supervisorRelease (payload : Payload)
  /-- READ_TAG (R82). -/
  | readTag (payload : Payload)
  /-- LIST_TAGS (R83). -/
  | listTags (payload : Payload)
  /-- TAGS_RESTORED (R84). -/
  | tagsRestored (payload : Payload)
  /-- SET_CALENDAR (R93). -/
  | setCalendar (payload : Payload)
  /-- READ_CALENDAR (R108). -/
  | readCalendar (payload : Payload)
  /-- SET_TRIM (R108). -/
  | setTrim (payload : Payload)
  /-- WRITE_WINDOW (R94). -/
  | writeWindow (payload : Payload)
  /-- CLEAR_WINDOW (R94). -/
  | clearWindow (payload : Payload)
  /-- READ_WINDOW (R94). -/
  | readWindow (payload : Payload)
  /-- DECLARE_LEVEL (R98). -/
  | declareLevel (payload : Payload)
  /-- LIFT_LEVEL (R99). -/
  | liftLevel (payload : Payload)
  /-- ADD_ENTRY (R103). -/
  | addEntry (payload : Payload)
  /-- DELETE_ENTRY (R107). -/
  | deleteEntry (payload : Payload)
  /-- READ_ENTRY (R107). -/
  | readEntry (payload : Payload)
  /-- LIST_ENTRIES (R107). -/
  | listEntries (payload : Payload)
  /-- READ_LEVELS (R108). -/
  | readLevels (payload : Payload)
  /-- SELECT_GROUP (R114). -/
  | selectGroup (payload : Payload)
  /-- READ_CONDITION (R124). -/
  | readCondition (payload : Payload)
  /-- WRITE_SECTION (R129). -/
  | writeSection (payload : Payload)
  /-- DELETE_SECTION (R132). -/
  | deleteSection (payload : Payload)
  /-- READ_SECTION (R134). -/
  | readSection (payload : Payload)
  /-- LIST_SECTIONS (R134). -/
  | listSections (payload : Payload)
  /-- LOCATE (R138). -/
  | locate (payload : Payload)
  /-- START_HUNT (R143). -/
  | startHunt (payload : Payload)
  /-- ABANDON_HUNT (R160). -/
  | abandonHunt (payload : Payload)
  /-- READ_HUNT (R161). -/
  | readHunt (payload : Payload)
  /-- DISMISS_HUNT (R161). -/
  | dismissHunt (payload : Payload)
  /-- WRITE_DEVICE (R165). -/
  | writeDevice (payload : Payload)
  /-- DELETE_DEVICE (R166). -/
  | deleteDevice (payload : Payload)
  /-- READ_DEVICE (R166). -/
  | readDevice (payload : Payload)
  /-- LIST_DEVICES (R166). -/
  | listDevices (payload : Payload)
  /-- ORDER_SWITCH (R167). -/
  | orderSwitch (payload : Payload)
  /-- SET_LINK_LIMIT (R171). -/
  | setLinkLimit (payload : Payload)
  /-- LINK_CLEAR (R181). -/
  | linkClear (payload : Payload)
  /-- READ_LINK (R182). `carrier` is PLCD as it stands at the command. -/
  | readLink (payload : Payload) (carrier : Bool)
  /-- SET_ATTENTION_LEVEL (R186). -/
  | setAttentionLevel (payload : Payload)
  /-- SET_MASK_LEVEL (R188). -/
  | setMaskLevel (payload : Payload)
  /-- FETCH_ATTENTION (R189). -/
  | fetchAttention (payload : Payload)
  /-- READ_ATTENTION (R190). -/
  | readAttention (payload : Payload)
  /-- SET_SUPERVISION (R191). -/
  | setSupervision (payload : Payload)
  /-- FRAME_ERROR (R199). `first` is the first byte shifted in. -/
  | frameError (first : Byte)
  /-- UNKNOWN_COMMAND (R200). `code` is the code of the frame, 63 to 255. -/
  | unknownCommand (code : Byte)
  /-- EMPTY_TRANSACTION (R197). -/
  | emptyTransaction
  /-- COLD_RESET (R204). `pins` are what the input pins bring to the reset. -/
  | coldReset (pins : Machine.Pins)
  /-- WARM_RESET (R204). `source` is what performs it, `pins` what the input pins bring. -/
  | warmReset (source : Machine.WarmSource) (pins : Machine.Pins)
  /-- INTERVAL_REPORT (R1). `frame` is the complete bytes of the frame; `cut` says that the marking ended part way through a byte more. -/
  | intervalReport (frame : List Byte) (cut : Bool)
  /-- WATCH_EXPIRY (R4). -/
  | watchExpiry (feeder : Machine.Feeder)
  /-- DECODED_POSITION_CHANGE (R46). `contacts` are the contacts as taken after standing 5 ms. -/
  | decodedPositionChange (feeder : Machine.Feeder) (contacts : Machine.Contacts)
  /-- TRIP_FAIL_EXPIRY (R50). -/
  | tripFailExpiry (feeder : Machine.Feeder)
  /-- CLOSE_FAIL_EXPIRY (R56). -/
  | closeFailExpiry (feeder : Machine.Feeder)
  /-- DEAD_TIMER_EXPIRY (R54). -/
  | deadTimerExpiry (feeder : Machine.Feeder)
  /-- RECLAIM_TIMER_EXPIRY (R57). -/
  | reclaimTimerExpiry (feeder : Machine.Feeder)
  /-- CLOSE_ONTO_FAULT_WINDOW_EXPIRY (R59). -/
  | closeOntoFaultWindowExpiry (feeder : Machine.Feeder)
  /-- HOLD_TIMER_EXPIRY (R150). -/
  | holdTimerExpiry (feeder : Machine.Feeder)
  /-- COMMIT_COMPLETION (R38). `found` is the content that the read-back gave, where it differs from the content written. -/
  | commitCompletion (found : Option Machine.Content)
  /-- SECOND_TICK (R89). `found` is the content that storage gave the scrubber for the record it checks, where it differs from the
  content held. A tick that carries is a minute change, handed on in the order of R91. -/
  | secondTick (found : Option Machine.Content)
  /-- MINUTE_CHANGE (R91): the second tick that carries the second from 59 to 0. `tick` is the order in which the four takers
  of R91 take the minute change, and what storage gave the scrubber. -/
  | minuteChange (tick : Machine.MinuteTick)
  /-- SUPERVISION_EXPIRY (R193). -/
  | supervisionExpiry
  /-- REPLY_FRAME (R175). `frame` is the complete bytes of the frame; `cut` says that the carrier dropped part way through a byte more. -/
  | replyFrame (frame : List Byte) (cut : Bool)
  /-- FRAME_SENT (R169). -/
  | frameSent
  /-- REPLY_TIMER_EXPIRY (R173). -/
  | replyTimerExpiry (address : Nat)
  /-- PROBE_TIMER_EXPIRY (R179). -/
  | probeTimerExpiry (address : Nat)
  /-- ARBITER_CHOICE (R170). `carrier` is PLCD as it stands. -/
  | arbiterChoice (carrier : Bool)
  /-- RESEND (R173). `carrier` is PLCD as it stands. -/
  | resend (carrier : Bool)
  /-- CLEAR_FRAME (R181). `carrier` is PLCD as it stands. -/
  | clearFrame (carrier : Bool)
  deriving DecidableEq, Repr

end Sys2Proof
end

