-- ==== Sys2Proof/WellFormed.lean ====
section
/-! DEFINITION. Which commands are well formed: the bounds that the frames and events of the part put on the operands of a row. -/

namespace Sys2Proof

/-- The code and the payload of a host command (11 R200); the other rows have none. -/
def Instr.frame : Instr → Option (Nat × Payload)
  | .nop p => some (0, p)
  | .resetPart p => some (1, p)
  | .readStartReason p => some (2, p)
  | .writeMarker p => some (3, p)
  | .readElements p => some (4, p)
  | .openStaging p => some (5, p)
  | .writeStaged p => some (6, p)
  | .readStaging p => some (7, p)
  | .discardStaging p => some (8, p)
  | .commitStaging p => some (9, p)
  | .readGroup p => some (10, p)
  | .readCurve p => some (11, p)
  | .readConstants p => some (12, p)
  | .readStoreStatus p => some (13, p)
  | .closeBreaker p => some (14, p)
  | .openBreaker p => some (15, p)
  | .clearBreakerFail p => some (16, p)
  | .setHostBlock p => some (17, p)
  | .readFeeder p => some (18, p)
  | .placeTag p => some (19, p)
  | .amendTag p => some (20, p)
  | .releaseTag p => some (21, p)
  | .supervisorRelease p => some (22, p)
  | .readTag p => some (23, p)
  | .listTags p => some (24, p)
  | .tagsRestored p => some (25, p)
  | .setCalendar p => some (26, p)
  | .readCalendar p => some (27, p)
  | .setTrim p => some (28, p)
  | .writeWindow p => some (29, p)
  | .clearWindow p => some (30, p)
  | .readWindow p => some (31, p)
  | .declareLevel p => some (32, p)
  | .liftLevel p => some (33, p)
  | .addEntry p => some (34, p)
  | .deleteEntry p => some (35, p)
  | .readEntry p => some (36, p)
  | .listEntries p => some (37, p)
  | .readLevels p => some (38, p)
  | .selectGroup p => some (39, p)
  | .readCondition p => some (40, p)
  | .writeSection p => some (41, p)
  | .deleteSection p => some (42, p)
  | .readSection p => some (43, p)
  | .listSections p => some (44, p)
  | .locate p => some (45, p)
  | .startHunt p => some (46, p)
  | .abandonHunt p => some (47, p)
  | .readHunt p => some (48, p)
  | .dismissHunt p => some (49, p)
  | .writeDevice p => some (50, p)
  | .deleteDevice p => some (51, p)
  | .readDevice p => some (52, p)
  | .listDevices p => some (53, p)
  | .orderSwitch p => some (54, p)
  | .setLinkLimit p => some (55, p)
  | .linkClear p => some (56, p)
  | .readLink p _ => some (57, p)
  | .setAttentionLevel p => some (58, p)
  | .setMaskLevel p => some (59, p)
  | .fetchAttention p => some (60, p)
  | .readAttention p => some (61, p)
  | .setSupervision p => some (62, p)
  | .frameError _ => none
  | .unknownCommand _ => none
  | .emptyTransaction => none
  | .coldReset _ => none
  | .warmReset _ _ => none
  | .intervalReport _ _ => none
  | .watchExpiry _ => none
  | .decodedPositionChange _ _ => none
  | .tripFailExpiry _ => none
  | .closeFailExpiry _ => none
  | .deadTimerExpiry _ => none
  | .reclaimTimerExpiry _ => none
  | .closeOntoFaultWindowExpiry _ => none
  | .holdTimerExpiry _ => none
  | .commitCompletion _ => none
  | .secondTick _ => none
  | .minuteChange _ => none
  | .supervisionExpiry => none
  | .replyFrame _ _ => none
  | .frameSent => none
  | .replyTimerExpiry _ => none
  | .probeTimerExpiry _ => none
  | .arbiterChoice _ => none
  | .resend _ => none
  | .clearFrame _ => none

/-- The most payload bytes that a command frame carries (11 R199). -/
def longestPayload : Nat := 60

/-- An address that a pole-top device can bear (09 R164). -/
def addressInRange (n : Nat) : Bool := decide (1 ≤ n ∧ n ≤ 30)

/-- An order of the takers of a minute change names each of the four once (05 R91). -/
def orderIsWhole (order : List Machine.MinuteTaker) : Bool :=
  decide (order.length = 4 ∧ order.Nodup)

/-- A command is well formed: its operands are such as its frame or its event can carry. -/
def Instr.wellFormed (i : Instr) : Bool :=
  match i.frame with
  | some (_, p) => decide (p.length ≤ longestPayload)
  | none =>
    match i with
    | .unknownCommand code => decide (63 ≤ code.toNat)
    | .minuteChange tick => orderIsWhole tick.order
    | .replyTimerExpiry a => addressInRange a
    | .probeTimerExpiry a => addressInRange a
    | _ => true

end Sys2Proof
end

