-- ==== Sys2Proof/Decode.lean ====
section
/-! DEFINITION. From the bytes of a transaction to the command that they are, and back (11 R197, R199, R200). The table of the rows
gives no row any bits, so no word spells a command. -/

namespace Sys2Proof

/-- The command that a word spells by the bits of the table: none, since spec/opcode_table.json gives no row any bits. -/
def decodeTableWord (_nbits _w : Nat) : Option Instr := none

/-- The command of a code (11 R200). `carrier` is the carrier detect line as it stands, which READ_LINK reads (09 R182). -/
def Instr.ofCode (code : Byte) (p : Payload) (carrier : Bool) : Instr :=
  match code.toNat with
  | 0 => .nop p
  | 1 => .resetPart p
  | 2 => .readStartReason p
  | 3 => .writeMarker p
  | 4 => .readElements p
  | 5 => .openStaging p
  | 6 => .writeStaged p
  | 7 => .readStaging p
  | 8 => .discardStaging p
  | 9 => .commitStaging p
  | 10 => .readGroup p
  | 11 => .readCurve p
  | 12 => .readConstants p
  | 13 => .readStoreStatus p
  | 14 => .closeBreaker p
  | 15 => .openBreaker p
  | 16 => .clearBreakerFail p
  | 17 => .setHostBlock p
  | 18 => .readFeeder p
  | 19 => .placeTag p
  | 20 => .amendTag p
  | 21 => .releaseTag p
  | 22 => .supervisorRelease p
  | 23 => .readTag p
  | 24 => .listTags p
  | 25 => .tagsRestored p
  | 26 => .setCalendar p
  | 27 => .readCalendar p
  | 28 => .setTrim p
  | 29 => .writeWindow p
  | 30 => .clearWindow p
  | 31 => .readWindow p
  | 32 => .declareLevel p
  | 33 => .liftLevel p
  | 34 => .addEntry p
  | 35 => .deleteEntry p
  | 36 => .readEntry p
  | 37 => .listEntries p
  | 38 => .readLevels p
  | 39 => .selectGroup p
  | 40 => .readCondition p
  | 41 => .writeSection p
  | 42 => .deleteSection p
  | 43 => .readSection p
  | 44 => .listSections p
  | 45 => .locate p
  | 46 => .startHunt p
  | 47 => .abandonHunt p
  | 48 => .readHunt p
  | 49 => .dismissHunt p
  | 50 => .writeDevice p
  | 51 => .deleteDevice p
  | 52 => .readDevice p
  | 53 => .listDevices p
  | 54 => .orderSwitch p
  | 55 => .setLinkLimit p
  | 56 => .linkClear p
  | 57 => .readLink p carrier
  | 58 => .setAttentionLevel p
  | 59 => .setMaskLevel p
  | 60 => .fetchAttention p
  | 61 => .readAttention p
  | 62 => .setSupervision p
  | _ => .unknownCommand code

/-- What the port takes a transaction to be, from the complete bytes shifted in (11 R197, R199, R200): the length byte is there and
lies in 0 to 60, the frame is whole, its CRC-16 checks, and the code names a command or does not. Bytes after the frame are
ignored. -/
def Instr.ofTransaction (bytes : List Byte) (carrier : Bool) : Instr :=
  match bytes with
  | [] => .emptyTransaction
  | [first] => .frameError first
  | first :: len :: rest =>
    let frame := bytes.take (len.toNat + 4)
    if len.toNat ≤ longestPayload ∧ len.toNat + 4 ≤ bytes.length ∧ Machine.crcChecks frame then
      .ofCode first (rest.take len.toNat) carrier
    else .frameError first

/-- The bytes of a command frame: code, payload length, payload and CRC-16 (11 R207). -/
def commandFrame (code : Byte) (p : Payload) : List Byte :=
  Machine.withCrc (code :: byte p.length :: p)

/-- The command frame that the host sends for a command; the rows that are no host command have none. -/
def Instr.transaction (i : Instr) : Option (List Byte) :=
  match i.frame with
  | some (code, p) => some (commandFrame (byte code) p)
  | none => none

end Sys2Proof
end

