-- ==== Sys2Proof/Machine/Basics.lean ====
section
/-! DEFINITION. The plain operations over the collections of Types.lean: fours, fives, pairs, tables, and the order of calendar
minutes. -/

namespace Sys2Proof.Machine

/-! ## Fours, fives and pairs -/

/-- The four indexes in ascending order. -/
def Ix4.all : List Ix4 := [.n1, .n2, .n3, .n4]

/-- The number of an index, 1 to 4. -/
def Ix4.num : Ix4 → Nat
  | .n1 => 1
  | .n2 => 2
  | .n3 => 3
  | .n4 => 4

/-- The index of a number, when it lies in 1 to 4. -/
def Ix4.ofNum : Nat → Option Ix4
  | 1 => some .n1
  | 2 => some .n2
  | 3 => some .n3
  | 4 => some .n4
  | _ => none

/-- The place of an index, 0 to 3: the number of a curve table (02 R28). -/
def Ix4.place (i : Ix4) : Nat := i.num - 1

/-- The index of a place, when it lies in 0 to 3. -/
def Ix4.ofPlace (n : Nat) : Option Ix4 := Ix4.ofNum (n + 1)

def Four.get {α : Type} (x : Four α) : Ix4 → α
  | .n1 => x.n1
  | .n2 => x.n2
  | .n3 => x.n3
  | .n4 => x.n4

def Four.set {α : Type} (x : Four α) (i : Ix4) (a : α) : Four α :=
  match i with
  | .n1 => { x with n1 := a }
  | .n2 => { x with n2 := a }
  | .n3 => { x with n3 := a }
  | .n4 => { x with n4 := a }

def Four.modify {α : Type} (x : Four α) (i : Ix4) (g : α → α) : Four α :=
  x.set i (g (x.get i))

def Four.map {α β : Type} (g : α → β) (x : Four α) : Four β :=
  ⟨g x.n1, g x.n2, g x.n3, g x.n4⟩

/-- The four made from their indexes. -/
def Four.build {α : Type} (g : Ix4 → α) : Four α :=
  ⟨g .n1, g .n2, g .n3, g .n4⟩

/-- The same thing four times. -/
def Four.fill {α : Type} (a : α) : Four α := ⟨a, a, a, a⟩

def Four.toList {α : Type} (x : Four α) : List α := [x.n1, x.n2, x.n3, x.n4]

/-- The elements in the order P1, P2, E1, E2, S1 (02 R34). -/
def Element.all : List Element := [.p1, .p2, .e1, .e2, .s1]

/-- The place of an element in that order, from 0. -/
def Element.place : Element → Nat
  | .p1 => 0
  | .p2 => 1
  | .e1 => 2
  | .e2 => 3
  | .s1 => 4

/-- Whether an element is an inverse-time one (01 section 1.3). -/
def Element.inverse : Element → Bool
  | .p1 | .e1 => true
  | .p2 | .e2 | .s1 => false

/-- Whether an element is an earth element (03 R53). -/
def Element.earth : Element → Bool
  | .p1 | .p2 => false
  | .e1 | .e2 | .s1 => true

def Five.get {α : Type} (x : Five α) : Element → α
  | .p1 => x.p1
  | .p2 => x.p2
  | .e1 => x.e1
  | .e2 => x.e2
  | .s1 => x.s1

def Five.set {α : Type} (x : Five α) (e : Element) (a : α) : Five α :=
  match e with
  | .p1 => { x with p1 := a }
  | .p2 => { x with p2 := a }
  | .e1 => { x with e1 := a }
  | .e2 => { x with e2 := a }
  | .s1 => { x with s1 := a }

/-- The five made from their elements. -/
def Five.build {α : Type} (g : Element → α) : Five α :=
  ⟨g .p1, g .p2, g .e1, g .e2, g .s1⟩

/-- The same thing five times. -/
def Five.fill {α : Type} (a : α) : Five α := ⟨a, a, a, a, a⟩

def District.all : List District := [.a, .b]

def Pair.get {α : Type} (x : Pair α) : District → α
  | .a => x.a
  | .b => x.b

def Pair.set {α : Type} (x : Pair α) (d : District) (v : α) : Pair α :=
  match d with
  | .a => { x with a := v }
  | .b => { x with b := v }

/-- Whether a district mask names a district. -/
def Mask.has (m : Mask) : District → Bool
  | .a => m.a
  | .b => m.b

/-- The group a level map names for a level (02 R29); a level above 5 does not occur and takes the entry of 5. -/
def LevelMap.get (m : LevelMap) : Nat → GroupNo
  | 0 => m.l0
  | 1 => m.l1
  | 2 => m.l2
  | 3 => m.l3
  | 4 => m.l4
  | _ => m.l5

/-! ## Tables -/

/-- What a number holds. -/
def Table.find {α : Type} : Table α → Nat → Option α
  | [], _ => none
  | (k, a) :: rest, n => if k = n then some a else Table.find rest n

/-- Puts a thing under a number, keeping the numbers ascending. -/
def Table.put {α : Type} (n : Nat) (a : α) : Table α → Table α
  | [] => [(n, a)]
  | (k, b) :: rest =>
    if n < k then (n, a) :: (k, b) :: rest
    else if n = k then (n, a) :: rest
    else (k, b) :: Table.put n a rest

/-- Takes a number out. -/
def Table.erase {α : Type} (t : Table α) (n : Nat) : Table α := t.filter (fun p => p.1 != n)

/-- Changes what a number holds, if it holds anything. -/
def Table.modify {α : Type} (t : Table α) (n : Nat) (g : α → α) : Table α :=
  t.map (fun p => if p.1 = n then (p.1, g p.2) else p)

/-- Changes everything held, each by its number. -/
def Table.mapAll {α : Type} (t : Table α) (g : Nat → α → α) : Table α :=
  t.map (fun p => (p.1, g p.1 p.2))

/-- The numbers held. -/
def Table.keys {α : Type} (t : Table α) : List Nat := t.map (·.1)

/-- The numbers of the things that a test takes. -/
def Table.pick {α : Type} (t : Table α) (test : Nat → α → Bool) : List Nat :=
  (t.filter (fun p => test p.1 p.2)).map (·.1)

/-- The numbers stand in strictly ascending order. -/
def Table.sorted {α : Type} : Table α → Bool
  | [] => true
  | [_] => true
  | (k, _) :: (l, b) :: rest => decide (k < l) && Table.sorted ((l, b) :: rest)

/-- Puts a number into an ascending list of numbers, once. -/
def insertNum (n : Nat) : List Nat → List Nat
  | [] => [n]
  | k :: rest => if n < k then n :: k :: rest else if n = k then k :: rest else k :: insertNum n rest

/-- The numbers of a list in ascending order, each once. -/
def sortNums (ns : List Nat) : List Nat := ns.foldr insertNum []

/-! ## Calendar values -/

/-- A number that orders calendar minutes as calendar values, year first (05 R100). -/
def Minute.rank (m : Minute) : Nat :=
  (((m.year * 16 + m.month) * 32 + m.day) * 32 + m.hour) * 64 + m.minute

/-- One minute is at or before another. -/
def Minute.le (m n : Minute) : Bool := decide (m.rank ≤ n.rank)

/-- One minute is later than another. -/
def Minute.laterThan (m n : Minute) : Bool := decide (n.rank < m.rank)

/-- The clock as a calendar time. -/
def Clock.stamp (c : Clock) : Stamp := ⟨c.minute, c.second⟩

/-! ## Timers -/

/-- One millisecond passes for a timer (00 section 6.2). -/
def Timer.tick (t : Timer) : Timer := t.map (· - 1)

/-- Whether a timer runs. -/
def Timer.running (t : Timer) : Bool := t.isSome

/-! ## Orders of names -/

/-- The place of a notice kind in the tie order (10 R185), from 0. -/
def NoticeKind.place : NoticeKind → Nat
  | .supervision => 0
  | .breakerFail => 1
  | .positionAlarm => 2
  | .measLost => 3
  | .recordFaulty => 4
  | .lockout => 5
  | .tagFrozen => 6
  | .trip => 7
  | .huntResult => 8
  | .tagExpired => 9
  | .levelChange => 10
  | .linkFault => 11
  | .commitDone => 12

/-- The thirteen kinds in tie order. -/
def NoticeKind.all : List NoticeKind :=
  [.supervision, .breakerFail, .positionAlarm, .measLost, .recordFaulty, .lockout, .tagFrozen, .trip, .huntResult,
   .tagExpired, .levelChange, .linkFault, .commitDone]

/-- The kind that a notice's details belong to. -/
def Detail.kind : Detail → NoticeKind
  | .supervision _ _ => .supervision
  | .breakerFail _ => .breakerFail
  | .positionAlarm _ => .positionAlarm
  | .measLost => .measLost
  | .recordFaulty _ _ => .recordFaulty
  | .lockout _ _ => .lockout
  | .tagFrozen _ _ => .tagFrozen
  | .trip _ _ => .trip
  | .huntResult _ _ _ _ => .huntResult
  | .tagExpired _ _ => .tagExpired
  | .levelChange _ _ => .levelChange
  | .linkFault _ _ => .linkFault
  | .commitDone _ _ => .commitDone

/-- The place of a scope: PART first and then the feeders (10 R189). -/
def Scope.place : Scope → Nat
  | .part => 0
  | .feeder f => f.num

/-- The place of a kind and scope in the order of fetching among equal levels (10 R189). -/
def noticeKey (k : NoticeKind) (sc : Scope) : Nat := k.place * 8 + sc.place

def Levels.get (l : Levels) : NoticeKind → Nat
  | .supervision => l.supervision
  | .breakerFail => l.breakerFail
  | .positionAlarm => l.positionAlarm
  | .measLost => l.measLost
  | .recordFaulty => l.recordFaulty
  | .lockout => l.lockout
  | .tagFrozen => l.tagFrozen
  | .trip => l.trip
  | .huntResult => l.huntResult
  | .tagExpired => l.tagExpired
  | .levelChange => l.levelChange
  | .linkFault => l.linkFault
  | .commitDone => l.commitDone

def Levels.set (l : Levels) (k : NoticeKind) (n : Nat) : Levels :=
  match k with
  | .supervision => { l with supervision := n }
  | .breakerFail => { l with breakerFail := n }
  | .positionAlarm => { l with positionAlarm := n }
  | .measLost => { l with measLost := n }
  | .recordFaulty => { l with recordFaulty := n }
  | .lockout => { l with lockout := n }
  | .tagFrozen => { l with tagFrozen := n }
  | .trip => { l with trip := n }
  | .huntResult => { l with huntResult := n }
  | .tagExpired => { l with tagExpired := n }
  | .levelChange => { l with levelChange := n }
  | .linkFault => { l with linkFault := n }
  | .commitDone => { l with commitDone := n }

/-- The causes in the order of the table of 06 R116. -/
def Cause.all : List Cause :=
  [.tagNoReclose, .tagNoClose, .seasonReclose, .seasonHunt, .measLost, .fallback, .restorePending, .hostBlock]

/-- Whether a block cause set holds a cause. -/
def Causes.has (c : Causes) : Cause → Bool
  | .tagNoReclose => c.tagNoReclose
  | .tagNoClose => c.tagNoClose
  | .seasonReclose => c.seasonReclose
  | .seasonHunt => c.seasonHunt
  | .measLost => c.measLost
  | .fallback => c.fallback
  | .restorePending => c.restorePending
  | .hostBlock => c.hostBlock

end Sys2Proof.Machine
end

