-- ==== Sys2Proof/Machine/Operands.lean ====
section
/-! DEFINITION. The operand forms: the fields of a command's payload read from its bytes (11 R207), and the choices among named
values. A reader checks counts, presence bytes and length only, as dispatch does (11 R200); ranges are the command's own
affair. -/

namespace Sys2Proof.Machine

/-! ## Readers -/

/-- Reads a one-byte number. -/
def read1 : List Byte → Option (Nat × List Byte)
  | b :: rest => some (b.toNat, rest)
  | [] => none

/-- Reads a two-byte number, high byte first. -/
def read2 : List Byte → Option (Nat × List Byte)
  | b :: c :: rest => some (b.toNat * 256 + c.toNat, rest)
  | _ => none

/-- Reads a four-byte number, high byte first. -/
def read4 : List Byte → Option (Nat × List Byte)
  | b :: c :: d :: e :: rest => some (((b.toNat * 256 + c.toNat) * 256 + d.toNat) * 256 + e.toNat, rest)
  | _ => none

/-- Reads `n` one-byte numbers. -/
def readMany : Nat → List Byte → Option (List Nat × List Byte)
  | 0, bs => some ([], bs)
  | n + 1, bs => do
    let (x, bs) ← read1 bs
    let (xs, bs) ← readMany n bs
    return (x :: xs, bs)

/-- Reads a list of one-byte numbers after its count byte. -/
def readList (bs : List Byte) : Option (List Nat × List Byte) := do
  let (n, bs) ← read1 bs
  readMany n bs

/-- Reads an optional field after its presence byte, 0 or 1. A presence byte of another value fits no length (log 15). -/
def readOpt {α : Type} (reader : List Byte → Option (α × List Byte)) (bs : List Byte) : Option (Option α × List Byte) := do
  let (p, bs) ← read1 bs
  match p with
  | 0 => return (none, bs)
  | 1 => do
    let (a, bs) ← reader bs
    return (some a, bs)
  | _ => none

/-- Reads a calendar minute: year less 2000, month, day, hour, minute (11 R207). -/
def readMinute (bs : List Byte) : Option (Minute × List Byte) := do
  let (y, bs) ← read1 bs
  let (mo, bs) ← read1 bs
  let (d, bs) ← read1 bs
  let (h, bs) ← read1 bs
  let (mi, bs) ← read1 bs
  return (⟨2000 + y, mo, d, h, mi⟩, bs)

/-- A reading that leaves no byte over: the payload holds exactly the bytes its fields need (11 R200). -/
def whole {α : Type} : Option (α × List Byte) → Option α
  | some (a, []) => some a
  | _ => none

/-! ## Payloads of few fields -/

/-- A payload of no fields. -/
def readNothing : Payload → Option Unit
  | [] => some ()
  | _ :: _ => none

/-- A payload of one one-byte field. -/
def readByte (bs : Payload) : Option Nat := whole (read1 bs)

/-- A payload of two one-byte fields. -/
def readTwo (bs : Payload) : Option (Nat × Nat) := whole do
  let (x, bs) ← read1 bs
  let (y, bs) ← read1 bs
  return ((x, y), bs)

/-- A payload of one two-byte field. -/
def readWord (bs : Payload) : Option Nat := whole (read2 bs)

/-- A payload of one optional one-byte field. -/
def readOptByte (bs : Payload) : Option (Option Nat) := whole (readOpt read1 bs)

/-! ## Targets and staged fields (02 R33, R34) -/

/-- A target as a payload names it, its kind and its numbers not yet range-checked (02 section 2.3). -/
inductive TargetFields where
  | group (f g : Nat)
  | curve (n : Nat)
  | feeder (f : Nat)
  /-- The kind byte names none of the three kinds. -/
  | unnamed (kind : Nat)
  deriving DecidableEq, Repr

/-- OPEN_STAGING: a target, its kind and then its numbers (log 14). A kind byte that names no kind is out of range, which the
command's rule judges (11 R207); no bytes are called for after it, and any are let pass (log 44). -/
def readTarget (bs : Payload) : Option TargetFields := whole do
  let (k, bs) ← read1 bs
  match k with
  | 0 => do
    let (f, bs) ← read1 bs
    let (g, bs) ← read1 bs
    return (.group f g, bs)
  | 1 => do
    let (n, bs) ← read1 bs
    return (.curve n, bs)
  | 2 => do
    let (f, bs) ← read1 bs
    return (.feeder f, bs)
  | k => return (.unnamed k, [])

/-- A target whose kind is named and whose numbers lie in range (02 R33). -/
def TargetFields.target : TargetFields → Option Target
  | .group f g => do
    let f ← Ix4.ofNum f
    let g ← Ix4.ofNum g
    return .group f g
  | .curve n => do
    let n ← Ix4.ofPlace n
    return .curve n
  | .feeder f => do
    let f ← Ix4.ofNum f
    return .feeder f
  | .unnamed _ => none

/-- WRITE_STAGED: field, index and value (02 R34). -/
structure StagedFields where
  field : Nat
  index : Nat
  value : Nat
  deriving DecidableEq, Repr

def readStaged (bs : Payload) : Option StagedFields := whole do
  let (f, bs) ← read1 bs
  let (i, bs) ← read1 bs
  let (v, bs) ← read4 bs
  return (⟨f, i, v⟩, bs)

/-! ## Tags (04) -/

/-- PLACE_TAG (04 R72). -/
structure PlaceTagFields where
  number : Nat
  feeder : Nat
  kind : Nat
  scope : List Nat
  authority : Nat
  holder : Nat
  expiry : Option Minute
  deriving DecidableEq, Repr

def readPlaceTag (bs : Payload) : Option PlaceTagFields := whole do
  let (n, bs) ← read2 bs
  let (f, bs) ← read1 bs
  let (k, bs) ← read1 bs
  let (sc, bs) ← readList bs
  let (a, bs) ← read1 bs
  let (h, bs) ← read2 bs
  let (e, bs) ← readOpt readMinute bs
  return (⟨n, f, k, sc, a, h, e⟩, bs)

/-- AMEND_TAG (04 R74). The expiry change, when carried, is NONE or a new minute; the sections to add are carried or not
(log 16). -/
structure AmendTagFields where
  number : Nat
  authority : Nat
  holder : Nat
  expiry : Option (Option Minute)
  sections : Option (List Nat)
  deriving DecidableEq, Repr

def readAmendTag (bs : Payload) : Option AmendTagFields := whole do
  let (n, bs) ← read2 bs
  let (a, bs) ← read1 bs
  let (h, bs) ← read2 bs
  let (e, bs) ← readOpt (readOpt readMinute) bs
  let (sc, bs) ← readOpt readList bs
  return (⟨n, a, h, e, sc⟩, bs)

/-- RELEASE_TAG and SUPERVISOR_RELEASE (04 R76, R78). -/
structure ReleaseFields where
  number : Nat
  authority : Nat
  holder : Nat
  deriving DecidableEq, Repr

def readRelease (bs : Payload) : Option ReleaseFields := whole do
  let (n, bs) ← read2 bs
  let (a, bs) ← read1 bs
  let (h, bs) ← read2 bs
  return (⟨n, a, h⟩, bs)

/-- LIST_TAGS (04 R83). -/
structure ListTagsFields where
  first : Nat
  count : Nat
  feeder : Option Nat
  deriving DecidableEq, Repr

def readListTags (bs : Payload) : Option ListTagsFields := whole do
  let (p, bs) ← read1 bs
  let (c, bs) ← read1 bs
  let (f, bs) ← readOpt read1 bs
  return (⟨p, c, f⟩, bs)

/-! ## Calendar (05) -/

/-- SET_CALENDAR: a calendar time and a weekday (05 R92). -/
def readClock (bs : Payload) : Option Clock := whole do
  let (m, bs) ← readMinute bs
  let (s, bs) ← read1 bs
  let (w, bs) ← read1 bs
  return (⟨m, s, w⟩, bs)

/-- WRITE_WINDOW (05 R94). -/
structure WindowFields where
  slot : Nat
  startMonth : Nat
  startDay : Nat
  endMonth : Nat
  endDay : Nat
  districts : Nat
  floor : Nat
  enabled : Nat
  deriving DecidableEq, Repr

def readWindowFields (bs : Payload) : Option WindowFields := whole do
  let (n, bs) ← read1 bs
  let (sm, bs) ← read1 bs
  let (sd, bs) ← read1 bs
  let (em, bs) ← read1 bs
  let (ed, bs) ← read1 bs
  let (m, bs) ← read1 bs
  let (fl, bs) ← read1 bs
  let (en, bs) ← read1 bs
  return (⟨n, sm, sd, em, ed, m, fl, en⟩, bs)

/-- DECLARE_LEVEL (05 R98). -/
structure DeclareFields where
  districts : Nat
  level : Nat
  untilMinute : Option Minute
  deriving DecidableEq, Repr

def readDeclare (bs : Payload) : Option DeclareFields := whole do
  let (m, bs) ← read1 bs
  let (l, bs) ← read1 bs
  let (u, bs) ← readOpt readMinute bs
  return (⟨m, l, u⟩, bs)

/-- The action of ADD_ENTRY, its fields not yet range-checked (05 R103). -/
inductive ActionFields where
  | declare (districts level : Nat) (duration : Option Nat)
  | lift (districts : Nat)
  deriving DecidableEq, Repr

/-- ADD_ENTRY (05 R103). The repeat byte 255 is PERPETUAL (log 17). -/
structure EntryFields where
  slot : Nat
  recurrence : Recurrence
  action : ActionFields
  repeats : Nat
  deriving DecidableEq, Repr

/-- Reads a recurrence and the when-fields it calls for (05 R103). -/
def readRecurrence (bs : List Byte) : Option (Recurrence × List Byte) := do
  let (r, bs) ← read1 bs
  match r with
  | 0 => do
    let (h, bs) ← read1 bs
    let (mi, bs) ← read1 bs
    return (.daily h mi, bs)
  | 1 => do
    let (w, bs) ← read1 bs
    let (h, bs) ← read1 bs
    let (mi, bs) ← read1 bs
    return (.weekly w h mi, bs)
  | 2 => do
    let (d, bs) ← read1 bs
    let (h, bs) ← read1 bs
    let (mi, bs) ← read1 bs
    return (.monthly d h mi, bs)
  | 3 => do
    let (mo, bs) ← read1 bs
    let (d, bs) ← read1 bs
    let (h, bs) ← read1 bs
    let (mi, bs) ← read1 bs
    return (.yearly mo d h mi, bs)
  | 4 => do
    let (m, bs) ← readMinute bs
    return (.once m, bs)
  | _ => none

/-- Reads an action and the fields it calls for (05 R103). -/
def readAction (bs : List Byte) : Option (ActionFields × List Byte) := do
  let (k, bs) ← read1 bs
  match k with
  | 0 => do
    let (m, bs) ← read1 bs
    let (l, bs) ← read1 bs
    let (d, bs) ← readOpt read2 bs
    return (.declare m l d, bs)
  | 1 => do
    let (m, bs) ← read1 bs
    return (.lift m, bs)
  | _ => none

def readEntryFields (bs : Payload) : Option EntryFields := whole do
  let (n, bs) ← read1 bs
  let (r, bs) ← readRecurrence bs
  let (a, bs) ← readAction bs
  let (p, bs) ← read1 bs
  return (⟨n, r, a, p⟩, bs)

/-! ## Sections, devices (07, 09) -/

/-- WRITE_SECTION (07 R129). -/
structure SectionFields where
  feeder : Nat
  number : Nat
  base : Nat
  limit : Nat
  parent : Nat
  head : Option Nat
  enabled : Nat
  deriving DecidableEq, Repr

def readSectionFields (bs : Payload) : Option SectionFields := whole do
  let (f, bs) ← read1 bs
  let (n, bs) ← read1 bs
  let (b, bs) ← read4 bs
  let (l, bs) ← read4 bs
  let (p, bs) ← read1 bs
  let (h, bs) ← readOpt read1 bs
  let (e, bs) ← read1 bs
  return (⟨f, n, b, l, p, h, e⟩, bs)

/-- LOCATE: a feeder and an optional XE (07 R138). -/
def readLocate (bs : Payload) : Option (Nat × Option Nat) := whole do
  let (f, bs) ← read1 bs
  let (x, bs) ← readOpt read2 bs
  return ((f, x), bs)

/-- WRITE_DEVICE (09 R165). -/
structure DeviceFields where
  address : Nat
  feeder : Nat
  kind : Nat
  tier : Nat
  relay : Option Nat
  deriving DecidableEq, Repr

def readDeviceFields (bs : Payload) : Option DeviceFields := whole do
  let (a, bs) ← read1 bs
  let (f, bs) ← read1 bs
  let (k, bs) ← read1 bs
  let (t, bs) ← read1 bs
  let (r, bs) ← readOpt read1 bs
  return (⟨a, f, k, t, r⟩, bs)

/-! ## Choices, each by its place in the list in which its rule first gives the values (11 R207) -/

/-- A two-way setting given as on or off, set or clear, ON or OFF: the first named is place 0 (log 12). -/
def onOff : Nat → Option Bool
  | 0 => some true
  | 1 => some false
  | _ => none

def TagKind.ofPlace : Nat → Option TagKind
  | 0 => some .noReclose
  | 1 => some .noClose
  | 2 => some .huntExclude
  | _ => none

def Authority.ofPlace : Nat → Option Authority
  | 0 => some .controlRoom
  | 1 => some .localPanel
  | _ => none

/-- The holder a command carries, when its authority and number are in range (04 R70). -/
def holderOf (authority number : Nat) : Option Holder :=
  match Authority.ofPlace authority with
  | some a => if 1 ≤ number ∧ number ≤ 9999 then some ⟨a, number⟩ else none
  | none => none

/-- A district mask byte: A in the lowest bit, then B; at least one district and no other bit (05 R94, R98). -/
def Mask.ofByte : Nat → Option Mask
  | 1 => some ⟨true, false⟩
  | 2 => some ⟨false, true⟩
  | 3 => some ⟨true, true⟩
  | _ => none

def DeviceKind.ofPlace : Nat → Option DeviceKind
  | 0 => some .switch
  | 1 => some .recloser
  | _ => none

/-- A position of ORDER_SWITCH: OPEN, CLOSED or NONE (09 R167). -/
def desiredOfPlace : Nat → Option (Option SwitchPos)
  | 0 => some (some .opened)
  | 1 => some (some .closed)
  | 2 => some none
  | _ => none

/-- A value of SELECT_GROUP: AUTO at 0 and then the groups 1 to 4 (06 R114, log 35). -/
def forcedOfPlace : Nat → Option (Option GroupNo)
  | 0 => some none
  | n => (Ix4.ofNum n).map some

def SupervisionAction.ofPlace : Nat → Option SupervisionAction
  | 0 => some .alert
  | 1 => some .fallback
  | _ => none

def District.ofPlace : Nat → Option District
  | 0 => some .a
  | 1 => some .b
  | _ => none

/-- A kind that a command names (10 R186). -/
def NoticeKind.ofPlace (n : Nat) : Option NoticeKind := NoticeKind.all[n]?

/-- The trim from its byte in two's complement (11 R207). -/
def trimOfByte (n : Nat) : Int := if n < 128 then (n : Int) else (n : Int) - 256

/-! ## Real dates (05 R90, R92) -/

/-- A year with a February 29: within 2000 to 2099 every year divisible by 4 (05 R90). -/
def leap (year : Nat) : Bool := decide (year % 4 = 0)

/-- The longest length of a month (05 R94). -/
def longestMonth : Nat → Nat
  | 1 | 3 | 5 | 7 | 8 | 10 | 12 => 31
  | 4 | 6 | 9 | 11 => 30
  | 2 => 29
  | _ => 0

/-- The length of a month in a year (05 R90). -/
def monthLength (year month : Nat) : Nat :=
  if month = 2 ∧ ¬ leap year then 28 else longestMonth month

/-- A month and day of some year, February 29 allowed (05 R94). -/
def realMonthDay (month day : Nat) : Bool :=
  decide (1 ≤ month ∧ month ≤ 12 ∧ 1 ≤ day ∧ day ≤ longestMonth month)

/-- A real minute of 2000 to 2099 (04 R72, 05 R98). -/
def Minute.real (m : Minute) : Bool :=
  decide (2000 ≤ m.year ∧ m.year ≤ 2099 ∧ 1 ≤ m.month ∧ m.month ≤ 12 ∧ 1 ≤ m.day
    ∧ m.day ≤ monthLength m.year m.month ∧ m.hour ≤ 23 ∧ m.minute ≤ 59)

/-- A whole calendar set (05 R92). -/
def Clock.real (c : Clock) : Bool := c.minute.real && decide (c.second ≤ 59 ∧ c.weekday ≤ 6)

end Sys2Proof.Machine
end

