-- ==== Sys2Proof/Machine/Builtin.lean ====
section
/-! DEFINITION. The built-in values: the safe group (02 R31), the safe constants (02 R32), the default notice levels (10 R185),
and the fixed numbers of the chapters. -/

namespace Sys2Proof.Machine

/-- The settings of an element in the safe group (02 R31). -/
def safeSettings : Element → ElementSettings
  | .p1 => ⟨false, 600, 0x1F#5, false, .n1, 100, 0, 0, 0⟩
  | .p2 => ⟨true, 600, 0x1F#5, true, .n1, 0, 0, 300, 0⟩
  | .e1 => ⟨false, 400, 0x1F#5, false, .n1, 100, 0, 0, 0⟩
  | .e2 => ⟨true, 400, 0x1F#5, true, .n1, 0, 0, 300, 0⟩
  | .s1 => ⟨true, 50, 0x1F#5, true, .n1, 0, 0, 2000, 100⟩

/-- The safe group (02 R31). -/
def safeGroup : Group where
  elements := Five.build safeSettings
  shotCount := 0
  deadTimes := Four.fill 10000
  reclaimTime := 30000
  recloseCeiling := 0
  huntEnabled := false
  huntCeiling := 0
  testBudget := 1
  testHoldTime := 1000

/-- The trip-fail time of the safe constants (02 R32). -/
def safeTripFail : Nat := 200
/-- The close-fail time of the safe constants (02 R32). -/
def safeCloseFail : Nat := 1000
/-- The close-onto-fault window of the safe constants (02 R32). -/
def safeWindow : Nat := 500

/-- The working copy of a constants staging on an EMPTY or FAULTY record (02 R33). -/
def safeConstantsDraft : ConstantsDraft where
  x1 := none
  minUncertainty := none
  uncertaintyPercent := none
  locateThreshold := none
  tripFailTime := some safeTripFail
  closeFailTime := some safeCloseFail
  windowTime := some safeWindow
  district := some .a
  levelMap := [none, none, none, none, none, none]

/-- The working copy of a curve staging on an EMPTY or FAULTY record (02 R33). -/
def unsetCurveDraft : CurveDraft where
  count := none
  qs := List.replicate 16 none
  ts := List.replicate 16 none

/-- The default level of each notice kind (10 R185). -/
def defaultLevels : Levels where
  supervision := 7
  breakerFail := 7
  positionAlarm := 6
  measLost := 6
  recordFaulty := 6
  lockout := 5
  tagFrozen := 5
  trip := 4
  huntResult := 4
  tagExpired := 3
  levelChange := 3
  linkFault := 3
  commitDone := 2

/-- The full running sum of an inverse-time element (01 section 1.4). -/
def fullSum : Nat := 1000000
/-- The most an interval count reaches (01 R18). -/
def fullCount : Nat := 6000
/-- The watch timer of a feeder, in ms (01 section 1.2). -/
def watchTime : Nat := 25
/-- The run of usable reports that clears MEAS_LOST (01 R7). -/
def fullRun : Nat := 50
/-- The furthest distance, in m (00 section 5). -/
def farthest : Nat := 120000
/-- The length of an untrimmed second, in pulses (05 R89). -/
def plainSecond : Nat := 32768
/-- The probe interval of a device, in ms (09 R174, R178). -/
def probeTime : Nat := 30000
/-- The most tags held (04 R69). -/
def tagCapacity : Nat := 48
/-- The most device records held (09 R164). -/
def deviceCapacity : Nat := 24

end Sys2Proof.Machine
end

