-- ==== Sys2Proof/Machine/Cold.lean ====
section
/-! DEFINITION. What each block holds after a cold reset (01 R25, 02 R45, 03 R68, 04 R86, 05 R110, 06 R126, 07 R139, 08 R163,
09 R184, 10 R196, 11 R204). -/

namespace Sys2Proof.Machine

/-- The measurement state after a cold or warm reset (01 R25). -/
def coldSample : Sample := ⟨.lost, none, 0, none, fullRun⟩

/-- An element record with nothing in it (01 R5, R12, R25). -/
def clearedElement : ElementRecord := ⟨false, 0, false, none⟩

/-- The Element Engine of a feeder after a cold or warm reset (01 R25). -/
def coldEngine : Engine := ⟨Five.fill clearedElement, none⟩

/-- The store after a cold reset (02 R45). -/
def coldStore : Store :=
  ⟨Four.fill (Four.fill .empty), Four.fill .empty, Four.fill .empty, .closed, 1⟩

/-- The position that two contacts decode to (03 R46). -/
def Contacts.decode : Contacts → Position
  | ⟨true, false⟩ => .closed
  | ⟨false, true⟩ => .opened
  | ⟨false, false⟩ => .travel
  | ⟨true, true⟩ => .invalid

/-- The sequencer record after a reset, from the contacts as they stand (03 R67, R68). -/
def resetSeq (cause : LockoutCause) (c : Contacts) : Seq where
  state := if c.decode = .closed then .closed else .lockout cause
  shots := 0
  tripElement := none
  tripFail := none
  closeFail := none
  dead := none
  reclaim := none
  window := none
  tripDrive := false
  closeDrive := false
  position := c.decode
  huntTest := false

/-- The calendar after a cold reset (05 R110). -/
def coldCalendar : Calendar where
  clock := none
  trim := 0
  prescaler := 0
  secondLength := plainSecond
  windows := Four.fill none
  active := Four.fill false
  floors := ⟨0, 0⟩
  declarations := ⟨none, none⟩
  levels := ⟨0, 0⟩
  schedule := []

/-- The inputs of a feeder after a cold reset (06 R126). -/
def coldInputs : Inputs := ⟨none, false, true, false⟩

/-- The Feeder Condition record after a cold reset (06 R126). -/
def coldCondition : Condition where
  level := 5
  group := none
  source := .safeSubstitute
  causes := ⟨false, false, true, true, false, false, true, false⟩
  workMode := false
  wish := true
  exclusion := .sections []

/-- The Pole Link after a cold reset, with the carrier as it stands (09 R184). -/
def coldLink (carrier : Bool) : Link where
  devices := []
  sending := none
  carrier := carrier
  clearWaits := true
  resends := []
  limit := 2
  tagCounter := 0
  lastChosen := Four.fill none

/-- The Attention Unit after a cold reset (10 R196). -/
def coldAttention : Attention where
  notices := []
  mask := 0
  levels := defaultLevels
  line := false
  period := 0
  action := .alert
  timer := none
  expiries := 0

/-- The place of a start reason kind, for its byte (11 R204, R207). -/
def StartKind.place : StartKind → Nat
  | .cold => 0
  | .warmPin => 1
  | .warmCommand => 2

/-- The start reason response: the kind, the warm reset count and the marker (11 R204, R205). -/
def startReason (kind : StartKind) (count : Nat) (marker : Byte) : Response :=
  ⟨.ok, 2#8, be1 kind.place ++ be1 count ++ [marker]⟩

/-- What a reset leaves the port to do: with nCS low it waits for the line to be high, and a RESET_PART pending is cleared (11
R206). -/
def phaseAfterReset (selected : Bool) : PortPhase := if selected then .cut else .ready

/-- The Command Port after a cold reset (11 R204, R206). -/
def coldPort (selected : Bool) : Port := ⟨startReason .cold 0 0#8, .cold, 0, 0#8, phaseAfterReset selected⟩

/-- The input pins at State.reset: every breaker open, no carrier, nCS high and no second passing. DESIGN CHOICE (log 5, log 6): the
manual gives input pins no value. -/
def powerOnPins : Pins := ⟨Four.fill ⟨false, true⟩, false, false, 0⟩

end Sys2Proof.Machine
end

