-- ==== Sys2Proof/Machine/State.lean ====
section
/-! DEFINITION. The state of the FR4: what each of its blocks holds (00 section 3.1), its pins, and the queue of commands that
wait. -/

namespace Sys2Proof.Machine

/-- The state of the part. -/
structure State where
  /-- The commands that wait, first in, first out (log 1). -/
  pending : List Instr
  /-- The position contacts of the four breakers as last taken (03 R46). -/
  contacts : Four Contacts
  /-- The backup trip line BKTRIP (03 R47). -/
  backup : Bool
  /-- The Sample Port (01). -/
  sample : Four Sample
  /-- The Element Engine (01). -/
  engine : Four Engine
  /-- The Settings Store (02). -/
  store : Store
  /-- The Feeder Sequencer (03). -/
  seq : Four Seq
  /-- The Tag Table, in placement order (04). -/
  tags : List Tag
  /-- The Season Calendar (05). -/
  cal : Calendar
  /-- The inputs that Permission Logic holds for each feeder (06 R112). -/
  inputs : Four Inputs
  /-- The fallback latch (06 R112). -/
  latch : Bool
  /-- The Feeder Condition records (06 R111). -/
  cond : Four Condition
  /-- The Section Map (07). -/
  sections : Four (Table Section)
  /-- The Hunt Unit (08). -/
  hunts : Four (Option Hunt)
  /-- The Pole Link (09). -/
  link : Link
  /-- The Attention Unit (10). -/
  att : Attention
  /-- The Command Port (11). -/
  port : Port
  deriving DecidableEq, Repr

/-- The part after a cold reset with the input pins as given and a queue of waiting commands: every block in the cold state of
its chapter. -/
def State.cold (pins : Pins) (pending : List Instr) : State where
  pending := pending
  contacts := pins.contacts
  backup := false
  sample := Four.fill coldSample
  engine := Four.fill coldEngine
  store := coldStore
  seq := pins.contacts.map (resetSeq .coldReset)
  tags := []
  cal := coldCalendar
  inputs := Four.fill coldInputs
  latch := false
  cond := Four.fill coldCondition
  sections := Four.fill []
  hunts := Four.fill none
  link := coldLink pins.carrier
  att := coldAttention
  port := coldPort pins.selected

/-- The part right after power-on: a cold reset (11 R204) with nothing waiting. -/
def State.reset : State := State.cold powerOnPins []

/-- The faults of the machine. There are none: no rule of the manual stops the part (log 32). -/
inductive Fault where
  deriving DecidableEq, Repr

/-- The refusals of the machine. -/
inductive Refusal where
  /-- Raised by exec for a row whose meaning is not written; no row is left so. Safe: the machine stops where the part would
  go on. -/
  | notModelled (mnemonic : String)
  deriving DecidableEq, Repr

end Sys2Proof.Machine
end

