-- ==== Sys2Proof/Machine/Flags.lean ====
section
/-! DEFINITION. The flags and lines that follow from other state: the permission table (06 R116), the attention line (10 R188), the
backup trip line (03 R47), and the close-onto-fault condition (03 R59). -/

namespace Sys2Proof.Machine

/-! ## The permission table (06 R116) -/

/-- The causes that block a reclose. -/
def Cause.blocksReclose : Cause → Bool
  | .tagNoReclose | .tagNoClose | .seasonReclose | .measLost | .fallback | .restorePending | .hostBlock => true
  | .seasonHunt => false

/-- The causes that block a hunt test close and a hunt restore close. -/
def Cause.blocksHunt : Cause → Bool
  | .tagNoReclose | .tagNoClose | .seasonHunt | .measLost | .fallback | .restorePending | .hostBlock => true
  | .seasonReclose => false

/-- The causes that block a host close. -/
def Cause.blocksHostClose : Cause → Bool
  | .tagNoClose => true
  | .tagNoReclose | .seasonReclose | .seasonHunt | .measLost | .fallback | .restorePending | .hostBlock => false

/-- The causes that set the downstream-block wish. -/
def Cause.setsWish : Cause → Bool
  | .tagNoReclose | .tagNoClose | .seasonReclose | .fallback | .restorePending | .hostBlock => true
  | .seasonHunt | .measLost => false

/-- The causes of a set, in the order of the table. -/
def Causes.list (c : Causes) : List Cause := Cause.all.filter c.has

/-- The first cause of a set that is of a kind, in the order of the table (log 25). -/
def Causes.first (c : Causes) (kind : Cause → Bool) : Option Cause := c.list.find? kind

/-- Some cause of a set is of a kind. -/
def Causes.any (c : Causes) (kind : Cause → Bool) : Bool := c.list.any kind

/-- The causes that stand in a new set and did not stand in the old one (06 R123). -/
def Causes.fresh (old new : Causes) : List Cause := new.list.filter (fun c => !old.has c)

/-! ## Lines -/

/-- Some pending notice's level exceeds the mask level (10 R188). -/
def Attention.wantsLine (a : Attention) : Bool :=
  a.notices.any (fun n => decide (a.mask < a.levels.get n.detail.kind))

/-- A feeder is in BREAKER_FAIL. -/
def SeqState.failed : SeqState → Bool
  | .breakerFail _ => true
  | _ => false

/-- Some feeder is in BREAKER_FAIL: the backup trip line is asserted (03 R47). -/
def anyFailed (q : Four Seq) : Bool := q.toList.any (fun r => r.state.failed)

/-! ## Conditions of a sequencer record -/

/-- The close-onto-fault condition: CLOSING of kind HOST, or CLOSED while the window timer runs (03 R59). -/
def Seq.ontoFault (r : Seq) : Bool :=
  match r.state with
  | .closing .host => true
  | .closed => r.window.isSome
  | _ => false

/-- A feeder is in HUNT. -/
def SeqState.hunting : SeqState → Bool
  | .hunt _ => true
  | _ => false

/-- A feeder is in LOCKOUT. -/
def SeqState.lockedOut : SeqState → Bool
  | .lockout _ => true
  | _ => false

/-! ## Hunts -/

/-- A final state of a hunt (08 R140). -/
def HuntPhase.final : HuntPhase → Bool
  | .found | .cleared | .abandoned _ => true
  | .isolatingOpen | .isolatingDevices | .testingClose | .testingHold | .restoringOpen | .restoringDevices
  | .restoringClose => false

/-- TESTING (08 R140). -/
def HuntPhase.testing : HuntPhase → Bool
  | .testingClose | .testingHold => true
  | _ => false

/-- DEVICES are awaited: the needed set is the devices named (08 R141). -/
def HuntPhase.devices : HuntPhase → Bool
  | .isolatingDevices | .restoringDevices => true
  | _ => false

/-! ## Devices -/

/-- A device that the hunt needs matches: acknowledged as desired with no order in flight (08 R141). -/
def Device.matched (d : Device) : Bool :=
  d.inFlight.isNone && d.ack.isSome && decide (d.ack = d.desired)

/-- A desired block is met by an acknowledged one; NONE is met by every one (09 R164). -/
def blockMet (desired ack : Option BlockPos) : Bool :=
  desired.isNone || decide (desired = ack)

/-- An order for a position (09 R177). -/
def OrderCode.position : OrderCode → Bool
  | .openSwitch | .closeSwitch => true
  | .status | .blockReclose | .unblockReclose => false

/-- An order for a block (09 R177). -/
def OrderCode.block : OrderCode → Bool
  | .blockReclose | .unblockReclose => true
  | .status | .openSwitch | .closeSwitch => false

/-- The number of orders in flight (09 R170). -/
def inFlightCount (t : Table Device) : Nat := (t.filter (fun p => p.2.inFlight.isSome)).length

end Sys2Proof.Machine
end

