-- ==== Sys2Proof/Machine/Ops.lean ====
section
/-! DEFINITION. The shared operations: writing the records of State, giving a notice, the active group and the constants of a
feeder, and the answer to a host command. -/

namespace Sys2Proof.Machine

/-! ## Writing records -/

/-- Writes a sequencer record. The backup trip line is asserted while some feeder is in BREAKER_FAIL (03 R47), so it is settled
here. -/
def State.putSeq (s : State) (f : Feeder) (r : Seq) : State :=
  let q := s.seq.set f r
  { s with seq := q, backup := anyFailed q }

/-- Changes a sequencer record. -/
def State.modSeq (s : State) (f : Feeder) (g : Seq → Seq) : State := s.putSeq f (g (s.seq.get f))

/-- Writes or removes a hunt record. -/
def State.putHunt (s : State) (f : Feeder) (h : Option Hunt) : State := { s with hunts := s.hunts.set f h }

/-- Writes the device table. -/
def State.putDevices (s : State) (t : Table Device) : State := { s with link := { s.link with devices := t } }

/-- Changes one device record. -/
def State.modDevice (s : State) (address : Nat) (g : Device → Device) : State :=
  s.putDevices (s.link.devices.modify address g)

/-- Writes the inputs of a feeder that Permission Logic holds. -/
def State.putInputs (s : State) (f : Feeder) (i : Inputs) : State := { s with inputs := s.inputs.set f i }

/-- Writes the Element Engine's record of a feeder. -/
def State.putEngine (s : State) (f : Feeder) (e : Engine) : State := { s with engine := s.engine.set f e }

/-- Writes the Sample Port's record of a feeder. -/
def State.putSample (s : State) (f : Feeder) (m : Sample) : State := { s with sample := s.sample.set f m }

/-! ## Notices (10) -/

/-- The attention line judged afresh (10 R188). -/
def Attention.judge (a : Attention) : Attention := { a with line := a.wantsLine }

/-- The place of a notice in the order of kind and then scope (10 R189). -/
def Notice.key (n : Notice) : Nat := noticeKey n.detail.kind n.scope

/-- A notice enters the pending set, or folds into the one of its kind and scope that is pending (10 R187). -/
def enterNotice (sc : Scope) (d : Detail) : List Notice → List Notice
  | [] => [⟨sc, d, 0⟩]
  | n :: rest =>
    if noticeKey d.kind sc < n.key then ⟨sc, d, 0⟩ :: n :: rest
    else if noticeKey d.kind sc = n.key then ⟨sc, d, min 255 (n.repeats + 1)⟩ :: rest
    else n :: enterNotice sc d rest

/-- The giving of a notice (10 R187): dropped when its kind is at level 0. -/
def Attention.give (a : Attention) (sc : Scope) (d : Detail) : Attention :=
  if a.levels.get d.kind = 0 then a
  else { a with notices := enterNotice sc d a.notices }.judge

/-- A block gives the Attention Unit a notice. -/
def State.give (s : State) (sc : Scope) (d : Detail) : State := { s with att := s.att.give sc d }

/-! ## What a feeder runs on -/

/-- The content of a stored record, when it is VALID. -/
def Stored.validContent {α : Type} : Stored α → Option α
  | .valid c _ => some c
  | .empty | .faulty _ _ => none

/-- The constants of a feeder, when its record is VALID (02 R32). -/
def State.constants (s : State) (f : Feeder) : Option Constants := (s.store.constants.get f).validContent

/-- The active group of a feeder: the group its Feeder Condition record names, or the safe group (06 R113, 02 R31). -/
def State.activeGroup (s : State) (f : Feeder) : Group :=
  match (s.cond.get f).group with
  | some g => ((s.store.groups.get f).get g).validContent.getD safeGroup
  | none => safeGroup

/-- The trip-fail time of a feeder (03 section 3.2, 02 R32). -/
def State.tripFailTime (s : State) (f : Feeder) : Nat := ((s.constants f).map (·.tripFailTime)).getD safeTripFail

/-- The close-fail time of a feeder. -/
def State.closeFailTime (s : State) (f : Feeder) : Nat := ((s.constants f).map (·.closeFailTime)).getD safeCloseFail

/-- The close-onto-fault window of a feeder (03 R59). -/
def State.windowTime (s : State) (f : Feeder) : Nat := ((s.constants f).map (·.windowTime)).getD safeWindow

/-- The causes that stand on a feeder. -/
def State.causes (s : State) (f : Feeder) : Causes := (s.cond.get f).causes

/-- A hunt runs on a feeder: it has a record in a non-final state (08 R140). -/
def State.huntRuns (s : State) (f : Feeder) : Bool :=
  match s.hunts.get f with
  | some h => !h.phase.final
  | none => false

/-! ## Answers (11 R201) -/

/-- What a command's rule answers: a status and a payload. -/
structure Reply where
  status : Status
  payload : Payload
  deriving DecidableEq, Repr

/-- OK with a payload. -/
def ok (p : Payload) : Reply := ⟨.ok, p⟩

/-- A refusal with nothing named. -/
def refuse (st : Status) : Reply := ⟨st, []⟩

/-- The response enters the response buffer (11 R198). -/
def State.answer (s : State) (code : Byte) (r : Reply) : State :=
  { s with port := { s.port with buffer := ⟨r.status, code, r.payload⟩ } }

/-- The supervision timer for a period in seconds: stopped at 0 (10 R191). -/
def supervisionTimer (period : Nat) : Timer := if period = 0 then none else some (period * 1000)

/-- A good frame restarts supervision and sets the consecutive expiry count to 0 (10 R192). -/
def State.restartSupervision (s : State) : State :=
  { s with att := { s.att with timer := supervisionTimer s.att.period, expiries := 0 } }

/-- A command that changes no state and answers a reply. -/
def reads {α : Type} (g : α → State → Reply) : α → State → State × Reply := fun a s => (s, g a s)

/-- A feeder named by a payload byte: outside 1 to 4 the command is refused BAD_FIELD (the first check of many commands). -/
def onFeeder (n : Nat) (s : State) (k : Feeder → State × Reply) : State × Reply :=
  match Ix4.ofNum n with
  | some f => k f
  | none => (s, refuse .badField)

end Sys2Proof.Machine
end

