-- ==== Sys2Proof/Machine/Replies.lean ====
section
/-! DEFINITION. How the payloads of responses are laid out (11 R207), and what the port shifts out (11 R197, R207). -/

namespace Sys2Proof.Machine

/-! ## Forms -/

/-- A field that says whether something is so: 1 for yes, 0 for no (log 12). -/
def yes (b : Bool) : List Byte := be1 (if b then 1 else 0)

/-- A choice of two, the first named at place 0: set or clear, on or off, asserted or released (11 R207, log 12). -/
def firstOf (b : Bool) : List Byte := be1 (if b then 0 else 1)

/-- An optional field after its presence byte. -/
def opt {α : Type} (enc : α → List Byte) : Option α → List Byte
  | none => [byte 0]
  | some a => byte 1 :: enc a

/-- A list after its count byte. -/
def listOf {α : Type} (enc : α → List Byte) (xs : List α) : List Byte := byte xs.length :: xs.flatMap enc

/-- A set of members as one number, the first in the lowest bit. -/
def bits : List Bool → Nat
  | [] => 0
  | b :: rest => (if b then 1 else 0) + 2 * bits rest

/-- A feeder. -/
def feederByte (f : Feeder) : List Byte := be1 f.num

/-- A calendar minute: five bytes. -/
def minuteBytes (m : Minute) : List Byte :=
  [byte (m.year - 2000), byte m.month, byte m.day, byte m.hour, byte m.minute]

/-- A calendar time: six bytes. -/
def stampBytes (t : Stamp) : List Byte := minuteBytes t.minute ++ be1 t.second

/-- A district mask. -/
def maskByte (m : Mask) : List Byte := be1 (bits [m.a, m.b])

/-! ## Places of names (11 R207) -/

def Status.place : Status → Nat
  | .ok => 0
  | .frameError => 1
  | .unknownCommand => 2
  | .badField => 3
  | .busy => 4
  | .notFound => 5
  | .full => 6
  | .duplicate => 7
  | .notHolder => 8
  | .frozen => 9
  | .inUse => 10
  | .wrongState => 11
  | .blocked => 12
  | .noStaging => 13

def MeasState.place : MeasState → Nat
  | .valid => 0
  | .held => 1
  | .lost => 2

def Position.place : Position → Nat
  | .closed => 0
  | .opened => 1
  | .travel => 2
  | .invalid => 3

def LockoutCause.place : LockoutCause → Nat
  | .protection => 0
  | .blocked => 1
  | .closeFail => 2
  | .hostOpen => 3
  | .externalOpen => 4
  | .huntEnd => 5
  | .warmReset => 6
  | .coldReset => 7

def TripOrigin.place : TripOrigin → Nat
  | .protection => 0
  | .hostOpen => 1
  | .huntEnd => 2

def CloseKind.place : CloseKind → Nat
  | .reclose => 0
  | .host => 1

def HuntService.place : HuntService → Nat
  | .idle => 0
  | .opening => 1
  | .testClosing => 2
  | .testClosed => 3
  | .restoreClosing => 4

def SeqState.place : SeqState → Nat
  | .closed => 0
  | .tripping _ _ => 1
  | .deadTime => 2
  | .closing _ => 3
  | .reclaim => 4
  | .lockout _ => 5
  | .breakerFail _ => 6
  | .hunt _ => 7

def TagKind.place : TagKind → Nat
  | .noReclose => 0
  | .noClose => 1
  | .huntExclude => 2

def Authority.place : Authority → Nat
  | .controlRoom => 0
  | .localPanel => 1

/-- A holder: authority and number. -/
def holderBytes (h : Holder) : List Byte := be1 h.authority.place ++ be2 h.number

def GroupSource.place : GroupSource → Nat
  | .forced => 0
  | .levelMap => 1
  | .fallback => 2
  | .safeSubstitute => 3

def SwitchPos.place : SwitchPos → Nat
  | .opened => 0
  | .closed => 1

def BlockPos.place : BlockPos → Nat
  | .blocked => 0
  | .unblocked => 1

/-- OPEN, CLOSED, or NONE or UNKNOWN (09 R164). -/
def switchByte (p : Option SwitchPos) : List Byte := be1 ((p.map SwitchPos.place).getD 2)

/-- BLOCK, UNBLOCK or NONE; BLOCKED, UNBLOCKED or UNKNOWN (09 R164). -/
def blockByte (p : Option BlockPos) : List Byte := be1 ((p.map BlockPos.place).getD 2)

def DeviceKind.place : DeviceKind → Nat
  | .switch => 0
  | .recloser => 1

def Owner.place : Owner → Nat
  | .host => 0
  | .hunt => 1

def Reach.place : Reach → Nat
  | .reachable => 0
  | .unreachable => 1
  | .local => 2

def AbandonReason.place : AbandonReason → Nat
  | .blocked => 0
  | .budget => 1
  | .link => 2
  | .host => 3
  | .position => 4
  | .reset => 5

/-- The six states of a hunt (08 R140). -/
def HuntPhase.place : HuntPhase → Nat
  | .isolatingOpen | .isolatingDevices => 0
  | .testingClose | .testingHold => 1
  | .restoringOpen | .restoringDevices | .restoringClose => 2
  | .found => 3
  | .cleared => 4
  | .abandoned _ => 5

/-- What a hunt awaits (08 R140). -/
def HuntPhase.awaiting : HuntPhase → Option Nat
  | .isolatingOpen | .restoringOpen => some 0
  | .isolatingDevices | .restoringDevices => some 1
  | .testingClose => some 2
  | .testingHold => some 3
  | .restoringClose => some 4
  | .found | .cleared | .abandoned _ => none

/-- The reason of an abandoned hunt. -/
def HuntPhase.reason : HuntPhase → Option AbandonReason
  | .abandoned r => some r
  | .isolatingOpen | .isolatingDevices | .testingClose | .testingHold | .restoringOpen | .restoringDevices
  | .restoringClose | .found | .cleared => none

def CandidateStatus.place : CandidateStatus → Nat
  | .pending => 0
  | .healthy => 1
  | .faulted => 2
  | .skipped => 3

/-- The place of a cause in the table of 06 R116, which is its bit in a cause set. -/
def Cause.place : Cause → Nat
  | .tagNoReclose => 0
  | .tagNoClose => 1
  | .seasonReclose => 2
  | .seasonHunt => 3
  | .measLost => 4
  | .fallback => 5
  | .restorePending => 6
  | .hostBlock => 7

def DeviceTrouble.place : DeviceTrouble → Nat
  | .refused => 0
  | .local => 1
  | .unreachable => 2
  | .ackOpened => 3
  | .ackClosed => 4

def BreakerEvent.place : BreakerEvent → Nat
  | .notOpen => 0
  | .restoreTrip => 1
  | .breakerFail => 2
  | .closeFail => 3
  | .unaskedOpen => 4
  | .unaskedClose => 5

/-- The detail of a POSITION_ALARM: an element, or one of the seven names after the five elements (log 19). -/
def AlarmDetail.place : AlarmDetail → Nat
  | .element e => e.place
  | .invalid => 5
  | .closeFail => 6
  | .positionUnknown => 7
  | .externalOpen => 8
  | .externalClose => 9
  | .unaskedOpen => 10
  | .unaskedClose => 11

def FaultyCause.place : FaultyCause → Nat
  | .readBack => 0
  | .scrub => 1

def LinkTrouble.place : LinkTrouble → Nat
  | .noReply => 0
  | .refused => 1
  | .local => 2

def SupervisionAction.place : SupervisionAction → Nat
  | .alert => 0
  | .fallback => 1

def District.place : District → Nat
  | .a => 0
  | .b => 1

/-! ## Records that several commands return -/

/-- A record of the store: its kind and its numbers (log 14). -/
def targetBytes : Target → List Byte
  | .group f g => be1 0 ++ feederByte f ++ be1 g.num
  | .curve n => be1 1 ++ be1 n.place
  | .feeder f => be1 2 ++ feederByte f

/-- A hunt exclusion set: three bytes (11 R207). -/
def exclusionBytes : Exclusion → List Byte
  | .wholeFeeder => be1 1 ++ be2 0
  | .sections ns => be1 0 ++ be2 (bits ((List.range 16).map (fun i => ns.contains (i + 1))))

/-- A block cause set: one byte (11 R207). -/
def causesByte (c : Causes) : List Byte := be1 (bits (Cause.all.map c.has))

/-- A fault snapshot (01 R23). -/
def snapshotBytes (x : Snapshot) : List Byte :=
  be1 x.element.place ++ listOf (fun e => be1 (Element.place e)) x.others ++ be1 x.shot ++ opt stampBytes x.time
    ++ be2 x.phaseCurrent ++ be2 x.residual ++ firstOf x.overRange ++ opt be2 x.xe ++ opt be4 x.distance

/-- The details of a notice of each kind (10 R185). The final state of a HUNT_RESULT is its place in the six states of 08 R140, and so 3
to 5 (08 R155, log 19). -/
def detailBytes : Detail → List Byte
  | .supervision n l => be1 n ++ yes l
  | .breakerFail o => be1 o.place
  | .positionAlarm d => be1 d.place
  | .measLost => []
  | .recordFaulty t c => targetBytes t ++ be1 c.place
  | .lockout c n => be1 c.place ++ be1 n
  | .tagFrozen n h => be2 n ++ holderBytes h
  | .trip e n => be1 e.place ++ be1 n
  | .huntResult p x i u =>
    be1 p.place ++ opt (fun r => be1 (AbandonReason.place r)) p.reason ++ opt be1 x ++ opt be1 i ++ be1 u
  | .tagExpired n h => be2 n ++ holderBytes h
  | .levelChange o n => be1 o ++ be1 n
  | .linkFault a w => be1 a ++ be1 w.place
  | .commitDone t r => targetBytes t ++ be1 (if r then 0 else 1)

/-- A scope: PART at 0 and then the feeders. -/
def scopeByte (x : Scope) : List Byte := be1 x.place

/-! ## What is shifted out -/

/-- The bytes of a response frame (11 R207). -/
def Response.frame (r : Response) : List Byte :=
  withCrc (byte r.status.place :: r.code :: byte r.payload.length :: r.payload)

/-- The byte that the port shifts out at a place of a transaction: those of the buffered response, and 0x00 after its last (11
R197); none in a transaction that a reset has cut short (R206). -/
def State.shiftOut (s : State) (n : Nat) : Option Byte :=
  if s.port.phase = .cut then none else some ((s.port.buffer.frame[n]?).getD 0#8)

end Sys2Proof.Machine
end

