-- ==== Sys2Proof/Machine/Map.lean ====
section
/-! DEFINITION. The tree of a feeder's sections (07 R128), the sections that go dead or live together (08 R145, R146, R148), and
the making of a location (07 R135 to R137). -/

namespace Sys2Proof.Machine

/-- The most sections of a feeder, and so the most steps from a section to its root (07 R128). -/
def sectionCount : Nat := 16

/-! ## Terms of the tree (07 R128) -/

/-- The parent of a held section; 0 for a root and for a section that is not held. -/
def parentOf (t : Table Section) (n : Nat) : Nat := ((t.find n).map (·.parent)).getD 0

/-- The sections met in following parents upwards, nearest first, in at most `fuel` steps. -/
def climb (t : Table Section) : Nat → Nat → List Nat
  | 0, _ => []
  | fuel + 1, n =>
    let p := parentOf t n
    if p = 0 then [] else p :: climb t fuel p

/-- The ancestors of a section, nearest first. -/
def ancestors (t : Table Section) (n : Nat) : List Nat := climb t sectionCount n

/-- The children of a section, ascending. -/
def childrenOf (t : Table Section) (n : Nat) : List Nat := t.pick (fun _ x => decide (x.parent = n))

/-- The depth of a section: 1 for a root. -/
def depthOf (t : Table Section) (n : Nat) : Nat := (ancestors t n).length + 1

/-- The head device of a section. -/
def headOf (t : Table Section) (n : Nat) : Option Nat := (t.find n).bind (·.head)

/-- The nearest head device on the path from a section upwards, the section itself first. -/
def nearestHead (t : Table Section) (n : Nat) : Option Nat := (n :: ancestors t n).findSome? (headOf t)

/-- Some held section has a device at its head (07 R133). -/
def headed (t : Table Section) (address : Nat) : Bool := t.any (fun p => decide (p.2.head = some address))

/-! ## Sections that go together -/

/-- One step down: the children, of the sections of a set, that `through` lets pass. -/
def grow (t : Table Section) (through : Section → Bool) (ns : List Nat) : List Nat :=
  sortNums (ns ++ t.pick (fun _ x => ns.contains x.parent && through x))

/-- The sections reached from a set by going down through children that `through` lets pass, in at most `fuel` steps. -/
def spread (t : Table Section) (through : Section → Bool) : Nat → List Nat → List Nat
  | 0, ns => ns
  | fuel + 1, ns => spread t through fuel (grow t through ns)

/-- A section with no head device. -/
def Section.headless (x : Section) : Bool := x.head.isNone

/-- The roots that have no head device. -/
def headlessRoots (t : Table Section) : List Nat :=
  t.pick (fun _ x => decide (x.parent = 0) && x.headless)

/-- The test span of a section: the section and its headless children, their headless children, and so on (08 R146). -/
def testSpan (t : Table Section) (n : Nat) : List Nat := spread t Section.headless sectionCount [n]

/-- The sections that a test of `n` energises and that no head device can keep dead (08 R145). -/
def unavoidable (t : Table Section) (n : Nat) : List Nat :=
  spread t Section.headless sectionCount (sortNums (n :: (ancestors t n ++ headlessRoots t)))

/-- A device is acknowledged CLOSED. -/
def Table.ackClosed (d : Table Device) (address : Nat) : Bool :=
  match d.find address with
  | some r => decide (r.ack = some .closed)
  | none => false

/-- A section is fed from the one above it: it has no head device, or its head device is acknowledged CLOSED. -/
def Section.fed (d : Table Device) (x : Section) : Bool :=
  match x.head with
  | none => true
  | some a => d.ackClosed a

/-- The sections that a test of `n` energises, by the positions that the devices have acknowledged: the span, the ancestors, every root
with no head device or with one acknowledged CLOSED, whether or not it lies on the path of `n`, and all that is reached down from these
(08 R145, R148; log 26). -/
def energised (t : Table Section) (d : Table Device) (n : Nat) : List Nat :=
  let roots := t.pick (fun _ x => decide (x.parent = 0) && x.fed d)
  spread t (Section.fed d) sectionCount (sortNums (testSpan t n ++ ancestors t n ++ roots))

/-! ## Locations (07 R135 to R137) -/

/-- The distance of an XE (01 R23, 07 R138). -/
def distanceOf (xe x1 : Nat) : Nat := min farthest (xe * 1000 / x1)

/-- The uncertainty and the window of a distance (07 R135). -/
def spanOf (k : Constants) (d : Nat) : Span :=
  let u := max k.minUncertainty (d * k.uncertaintyPercent / 100)
  ⟨u, d - u, d + u⟩

/-- A location made from a distance and the constants of a feeder (07 R135). -/
def makeLocation (k : Option Constants) (d : Option Nat) : Location :=
  match k, d with
  | some k, some d => ⟨some d, some (spanOf k d)⟩
  | _, _ => ⟨none, none⟩

/-- A section reaches into the window of a location (07 R136). -/
def Section.candidate (x : Section) (l : Location) : Bool :=
  x.enabled && match l.span with
    | some w => decide (x.base ≤ w.high ∧ w.low ≤ x.limit)
    | none => true

/-- One section stands before another in hunt order: depth, then base, then number (07 R137). -/
def huntBefore (x y : Nat × Nat × Nat) : Bool :=
  decide (x.1 < y.1 ∨ (x.1 = y.1 ∧ (x.2.1 < y.2.1 ∨ (x.2.1 = y.2.1 ∧ x.2.2 ≤ y.2.2))))

/-- Puts a section into a list that stands in hunt order. -/
def insertHunt (x : Nat × Nat × Nat) : List (Nat × Nat × Nat) → List (Nat × Nat × Nat)
  | [] => [x]
  | y :: rest => if huntBefore x y then x :: y :: rest else y :: insertHunt x rest

/-- The candidates of a location, in hunt order (07 R136, R137). -/
def candidatesOf (t : Table Section) (l : Location) : List Nat :=
  let held := t.filter (fun p => p.2.candidate l)
  ((held.map (fun p => (depthOf t p.1, p.2.base, p.1))).foldr insertHunt []).map (fun x => x.2.2)

/-- The distance of a feeder's fault snapshot (08 R144). -/
def State.snapshotDistance (s : State) (f : Feeder) : Option Nat := (s.engine.get f).snapshot.bind (·.distance)

/-- The location made at the start of a hunt (08 R144). -/
def State.locate (s : State) (f : Feeder) : Location := makeLocation (s.constants f) (s.snapshotDistance f)

end Sys2Proof.Machine
end

