-- ==== Sys2Proof/Machine/Sequence.lean ====
section
/-! DEFINITION. The Sequencer's acts on one breaker: its drives, its entry into LOCKOUT, its leaving of HUNT, and the opens and
closes it makes for a hunt (03 R47, R50, R53, R64 to R66). -/

namespace Sys2Proof.Machine

/-! ## Drives and timers of a record -/

/-- The close drive released and the close-fail timer stopped. -/
def Seq.releaseClose (r : Seq) : Seq := { r with closeDrive := false, closeFail := none }

/-- The trip drive released and the trip-fail timer stopped. -/
def Seq.releaseTrip (r : Seq) : Seq := { r with tripDrive := false, tripFail := none }

/-- The trip drive asserted; a close drive asserted before it is first released (03 R47). -/
def Seq.assertTrip (r : Seq) : Seq :=
  if r.closeDrive then { r.releaseClose with tripDrive := true } else { r with tripDrive := true }

/-- The close drive asserted and the close-fail timer started. -/
def Seq.assertClose (time : Nat) (r : Seq) : Seq := { r with closeDrive := true, closeFail := some time }

/-- Every timer of the record stopped (03 R53). -/
def Seq.stopTimers (r : Seq) : Seq :=
  { r with tripFail := none, closeFail := none, dead := none, reclaim := none, window := none }

/-- CLOSED with the shot counter at 0, the close-onto-fault window stopped (03 R51, R58, R64, R66). -/
def Seq.restClosed (r : Seq) : Seq :=
  { r with state := .closed, shots := 0, tripElement := none, window := none, huntTest := false }

/-! ## Acts -/

/-- The entry into LOCKOUT (03 R53): every running timer stopped, the cause set, a LOCKOUT notice given. `element` is the trip
element that is kept (log 22). -/
def State.lockout (s : State) (f : Feeder) (cause : LockoutCause) (element : Option Element) : State :=
  (s.modSeq f (fun r => { r.stopTimers with state := .lockout cause, tripElement := element, huntTest := false })).give
    (.feeder f) (.lockout cause (s.seq.get f).shots)

/-- The leaving of HUNT at a hunt's end, by the drives and the position (03 R64). No trip element goes with it (log 22). -/
def State.leaveHunt (s : State) (f : Feeder) : State :=
  if (s.seq.get f).tripDrive then
    s.modSeq f (fun r => { r with state := .tripping .huntEnd false, tripElement := none, huntTest := false })
  else
    let s := s.modSeq f Seq.releaseClose
    if (s.seq.get f).position = .closed then s.modSeq f Seq.restClosed
    else s.lockout f .huntEnd none

/-- The entry into BREAKER_FAIL at the expiry of the trip-fail timer (03 R50): the trip drive stays asserted. -/
def State.breakerFails (s : State) (f : Feeder) (origin : TripOrigin) : State :=
  (s.modSeq f (fun r => { r with state := .breakerFail origin, tripFail := none, huntTest := false })).give
    (.feeder f) (.breakerFail origin)

/-! ## Serving a hunt -/

/-- HUNT_OPEN (03 R66). The answer says whether OPEN is reported at once. -/
def State.huntOpen (s : State) (f : Feeder) : State × Bool :=
  let r := s.seq.get f
  if r.state = .hunt .opening then (s, false)
  else if r.position = .opened then
    (s.modSeq f (fun r => { r.releaseClose with state := .hunt .idle, huntTest := false }), true)
  else
    let time := s.tripFailTime f
    (s.modSeq f (fun r =>
      let r := r.assertTrip
      { r with state := .hunt .opening, tripFail := r.tripFail.or (some time) }), false)

/-- What the Sequencer answers to TEST_CLOSE and RESTORE_CLOSE (03 R65). -/
inductive CloseAnswer where
  | issued
  | blocked (c : Cause)
  | position
  | wrongState
  deriving DecidableEq, Repr

/-- TEST_CLOSE and RESTORE_CLOSE, by the hunt service that they lead to (03 R65). -/
def State.huntClose (s : State) (f : Feeder) (service : HuntService) : State × CloseAnswer :=
  let r := s.seq.get f
  if r.state = .hunt .idle then
    match (s.causes f).first Cause.blocksHunt with
    | some c => (s, .blocked c)
    | none =>
      if r.position = .opened then
        let time := s.closeFailTime f
        (s.modSeq f (fun r => { r.assertClose time with
            state := .hunt service, huntTest := r.huntTest || decide (service = .testClosing) }), .issued)
      else (s, .position)
  else (s, .wrongState)

end Sys2Proof.Machine
end

