-- ==== Sys2Proof/Machine/HuntUnit.lean ====
section
/-! DEFINITION. The Hunt Unit: the start, the step, the test, the restore and the end of a hunt, and what reaches it while it runs
(08). -/

namespace Sys2Proof.Machine

/-! ## Candidates -/

/-- Some candidate is FAULTED. -/
def Hunt.faulted (h : Hunt) : Option Nat := (h.candidates.find? (fun c => decide (c.status = .faulted))).map (·.number)

/-- The final state that a restore aims at: FOUND with a FAULTED candidate, else CLEARED (08 section 8.6). -/
def Hunt.goal (h : Hunt) : HuntPhase := if h.faulted.isSome then .found else .cleared

/-- The section of the current candidate. -/
def Hunt.currentSection (h : Hunt) : Option Nat := (h.current.bind (h.candidates[·]?)).map (·.number)

/-- Marks the PENDING candidates that a test takes. -/
def markPending (status : CandidateStatus) (test : Nat → Bool) (cs : List Candidate) : List Candidate :=
  cs.map (fun c => if c.status = .pending ∧ test c.number then { c with status := status } else c)

/-- The test of a section is skipped under an exclusion set (08 R145). -/
def skipped (t : Table Section) (x : Exclusion) (n : Nat) : Bool :=
  match x with
  | .wholeFeeder => true
  | .sections ns => (unavoidable t n).any ns.contains

/-- The search of a step (08 R145): each PENDING candidate is judged in turn, and marked SKIPPED, until one is not skipped. The
answer is the list as marked and the place of the candidate taken. -/
def searchStep (skip : Nat → Bool) : List Candidate → List Candidate × Option Nat
  | [] => ([], none)
  | c :: rest =>
    if c.status = .pending then
      if skip c.number then
        let r := searchStep skip rest
        ({ c with status := .skipped } :: r.1, r.2.map (· + 1))
      else (c :: rest, some 0)
    else
      let r := searchStep skip rest
      (c :: r.1, r.2.map (· + 1))

/-! ## Devices of a hunt -/

/-- The Hunt Unit sets the desired position of a device: it becomes hunt-owned and its held-back mark is cleared (08 R141, 09
R177). -/
def Device.huntSet (pos : SwitchPos) (d : Device) : Device := { d with desired := some pos, owner := .hunt, posHeld := false }

/-- A device of a feeder that the hunt owns. -/
def Device.owned (f : Feeder) (d : Device) : Bool := decide (d.feeder = f ∧ d.owner = .hunt)

/-- The devices named OPEN for a test (08 R146). -/
def namedOpen (t : Table Section) (x : Exclusion) (n : Nat) : List Nat :=
  ((testSpan t n).flatMap (childrenOf t)).filterMap (headOf t) ++
    match x with
    | .wholeFeeder => []
    | .sections ns => ns.filterMap (nearestHead t)

/-- The devices named CLOSED for a test (08 R146). -/
def namedClosed (t : Table Section) (n : Nat) : List Nat := (n :: ancestors t n).filterMap (headOf t)

/-- Sets the desired positions of the devices named. -/
def setNamed (toOpen toClose : List Nat) (t : Table Device) : Table Device :=
  t.mapAll (fun a d =>
    if toClose.contains a then d.huntSet .closed
    else if toOpen.contains a then d.huntSet .opened
    else d)

/-- Every device of a list matches (08 R141). -/
def allMatch (t : Table Device) (ns : List Nat) : Bool := ns.all (fun a => ((t.find a).map Device.matched).getD false)

/-- The trouble of a device whose reach stands against an order (08 R146). -/
def Reach.trouble : Reach → Option DeviceTrouble
  | .reachable => none
  | .local => some .local
  | .unreachable => some .unreachable

/-- The first device of an ascending list that cannot be ordered (08 R146; log 25). -/
def firstTrouble (t : Table Device) (ns : List Nat) : Option (Nat × DeviceTrouble) :=
  ns.findSome? (fun a => ((t.find a).bind (fun d => d.reach.trouble)).map (fun w => (a, w)))

/-- A device returned to the host at the end of a hunt (08 R155). `keep` marks the isolating device of FOUND. -/
def Device.returned (keep : Bool) (d : Device) : Device :=
  if keep then { d with owner := .host }
  else
    { d with
      owner := .host
      desired := if (d.inFlight.map (·.code.position)).getD false then none else d.ack
      posHeld := false }

/-- Every hunt-owned device of a feeder returned to the host. -/
def returnDevices (f : Feeder) (keep : Option Nat) (t : Table Device) : Table Device :=
  t.mapAll (fun a d => if d.owned f then d.returned (decide (keep = some a)) else d)

/-! ## The end of a hunt (08 R155) -/

/-- A hunt record made final. -/
def Hunt.close (h : Hunt) (final : HuntPhase) (detail : Option HuntDetail) : Hunt :=
  { h with
    phase := final
    detail := detail
    hold := none
    current := if final = .found then h.current else none
    named := [] }

/-- The record is made final and its devices return to the host, without a notice (08 R155, R162). -/
def State.finishHunt (s : State) (f : Feeder) (h : Hunt) (final : HuntPhase) (detail : Option HuntDetail) : State :=
  let keep := if final = .found then h.isolating else none
  (s.putDevices (returnDevices f keep s.link.devices)).putHunt f (some (h.close final detail))

/-- The Hunt Unit's part of the end of a hunt: the record, the devices and the HUNT_RESULT notice (08 R155). -/
def State.closeHunt (s : State) (f : Feeder) (final : HuntPhase) (detail : Option HuntDetail) : State :=
  match s.hunts.get f with
  | some h =>
    (s.finishHunt f h final detail).give (.feeder f) (.huntResult final h.faulted h.isolating h.used)
  | none => s

/-- The end of a hunt that the Hunt Unit ends: the Sequencer leaves HUNT by R64 (08 R155). -/
def State.endHunt (s : State) (f : Feeder) (final : HuntPhase) (detail : Option HuntDetail) : State :=
  (s.closeHunt f final detail).leaveHunt f

/-! ## The restore (08 R152 to R154) -/

/-- Every needed device of a restore matches: the block check and RESTORE_CLOSE (08 R154). -/
def State.askRestoreClose (s : State) (f : Feeder) (h : Hunt) : State :=
  match (s.causes f).first Cause.blocksHunt with
  | some c => s.endHunt f h.goal (some (.cause c))
  | none =>
    match s.huntClose f .restoreClosing with
    | (s, .issued) => s.putHunt f (some { h with phase := .restoringClose })
    | (s, .blocked c) => s.endHunt f h.goal (some (.cause c))
    | (s, .position) => s.endHunt f (.abandoned .position) (some (.breaker .notOpen))
    | (s, .wrongState) => s

/-- The restore awaits its devices, and goes on at once when they match (08 R152, R153). -/
def State.awaitRestore (s : State) (f : Feeder) (h : Hunt) : State :=
  let s := s.putHunt f (some h)
  if allMatch s.link.devices h.named then s.askRestoreClose f h else s

/-- The restore of FOUND closes the hunt-owned devices but the isolating one, which it opens (08 R152). -/
def restoreFound (f : Feeder) (isolating : Nat) (t : Table Device) : Table Device :=
  t.mapAll (fun a d =>
    if a = isolating then d.huntSet .opened
    else if d.owned f ∧ d.desired = some .opened then d.huntSet .closed
    else d)

/-- The restore of CLEARED closes the hunt-owned devices (08 R153). -/
def restoreCleared (f : Feeder) (t : Table Device) : Table Device :=
  t.mapAll (fun _ d => if d.owned f ∧ d.desired = some .opened then d.huntSet .closed else d)

/-- The restore begins, with the breaker open (08 R152, R153). -/
def State.beginRestore (s : State) (f : Feeder) (h : Hunt) : State :=
  match h.faulted with
  | some n =>
    match nearestHead (s.sections.get f) n with
    | none => s.endHunt f .found none
    | some a =>
      let devices := restoreFound f a s.link.devices
      let named := sortNums (a :: devices.pick (fun _ d => d.owned f && decide (d.desired = some .closed)))
      (s.putDevices devices).awaitRestore f { h with phase := .restoringDevices, isolating := some a, named := named }
  | none =>
    let devices := restoreCleared f s.link.devices
    let named := devices.pick (fun _ d => d.owned f)
    (s.putDevices devices).awaitRestore f { h with phase := .restoringDevices, current := none, named := named }

/-! ## The step (08 R145 to R147) -/

/-- Isolation is complete: the block check, the budget, and TEST_CLOSE (08 R147). -/
def State.isolated (s : State) (f : Feeder) (h : Hunt) : State :=
  match (s.causes f).first Cause.blocksHunt with
  | some c => s.endHunt f (.abandoned .blocked) (some (.cause c))
  | none =>
    if h.used = h.budget then s.endHunt f (.abandoned .budget) none
    else
      match s.huntClose f .testClosing with
      | (s, .issued) => s.putHunt f (some { h with phase := .testingClose, used := h.used + 1 })
      | (s, .blocked c) => s.endHunt f (.abandoned .blocked) (some (.cause c))
      | (s, .position) => s.endHunt f (.abandoned .position) (some (.breaker .notOpen))
      | (s, .wrongState) => s

/-- The step goes on to isolation with a candidate (08 R146). -/
def State.isolate (s : State) (f : Feeder) (h : Hunt) (place number : Nat) : State :=
  let t := s.sections.get f
  let toOpen := namedOpen t (s.cond.get f).exclusion number
  let toClose := namedClosed t number
  let named := sortNums (toOpen ++ toClose)
  let h := { h with phase := .isolatingDevices, current := some place, named := named }
  let s := (s.putDevices (setNamed toOpen toClose s.link.devices)).putHunt f (some h)
  match firstTrouble s.link.devices named with
  | some (a, w) => s.endHunt f (.abandoned .link) (some (.device a w))
  | none => if allMatch s.link.devices named then s.isolated f h else s

/-- A step, taken with the breaker open (08 R145). -/
def State.takeStep (s : State) (f : Feeder) (h : Hunt) : State :=
  let found := searchStep (skipped (s.sections.get f) (s.cond.get f).exclusion) h.candidates
  let h := { h with candidates := found.1, current := none }
  match found.2 with
  | some place =>
    match h.candidates[place]? with
    | some c => s.isolate f h place c.number
    | none => s.putHunt f (some h)
  | none => (s.putHunt f (some h)).beginRestore f h

/-! ## Reports of the Sequencer -/

/-- The Sequencer reports OPEN (08 R151 to R154). -/
def State.openReport (s : State) (f : Feeder) : State :=
  match s.hunts.get f with
  | none => s
  | some h =>
    match h.phase with
    | .isolatingOpen => s.takeStep f h
    | .restoringOpen => s.beginRestore f h
    | .restoringClose => s.endHunt f (.abandoned .position) (some (.breaker .restoreTrip))
    | .isolatingDevices | .testingClose | .testingHold | .restoringDevices | .found | .cleared | .abandoned _ => s

/-- The Sequencer reports CLOSED (08 R148, R154). -/
def State.closedReport (s : State) (f : Feeder) : State :=
  match s.hunts.get f with
  | none => s
  | some h =>
    match h.phase with
    | .testingClose =>
      s.putHunt f (some { h with phase := .testingHold, hold := some (s.activeGroup f).testHoldTime })
    | .restoringClose => s.endHunt f h.goal none
    | .isolatingOpen | .isolatingDevices | .testingHold | .restoringOpen | .restoringDevices | .found | .cleared
    | .abandoned _ => s

/-- The Sequencer tells of a test trip (08 R149). -/
def State.testTrip (s : State) (f : Feeder) : State :=
  match s.hunts.get f with
  | none => s
  | some h =>
    if h.phase.testing then
      let mark := fun (i : Nat) (c : Candidate) => if h.current = some i then { c with status := .faulted } else c
      s.putHunt f (some { h with candidates := h.candidates.mapIdx mark, hold := none, phase := .restoringOpen })
    else s

/-- The Hunt Unit asks HUNT_OPEN and takes an OPEN reported at once as the report (08 R151). -/
def State.askOpen (s : State) (f : Feeder) : State :=
  match s.huntOpen f with
  | (s, true) => s.openReport f
  | (s, false) => s

/-- A trip request that finds the feeder in HUNT (03 R66). The element that it names does not become the feeder's trip element
(log 22). -/
def State.huntTrip (s : State) (f : Feeder) (service : HuntService) : State :=
  if service = .opening then s
  else if service = .idle ∧ (s.seq.get f).position = .opened then s
  else
    let asked := s.huntOpen f
    let s := if service = .testClosing ∨ service = .testClosed then asked.1.testTrip f else asked.1
    if asked.2 then s.openReport f else s

/-- The expiry of the hold timer, which has run down (08 R150, log 3). -/
def State.holdExpires (s : State) (f : Feeder) : State :=
  match s.hunts.get f with
  | none => s
  | some h =>
    if h.phase = .testingHold ∧ h.hold = some 0 then
      let span := match h.currentSection with
        | some n => testSpan (s.sections.get f) n
        | none => []
      let h := { h with
        candidates := markPending .healthy span.contains h.candidates
        current := none
        hold := none
        phase := .isolatingOpen }
      (s.putHunt f (some h)).askOpen f
    else s

/-! ## Tellings -/

/-- The devices are judged afresh against the needed set (08 R141, R147, R154). A set that matched while the Sequencer answered
WRONG_STATE is so asked for again (log 38). -/
def State.judgeNeeded (s : State) (f : Feeder) : State :=
  match s.hunts.get f with
  | none => s
  | some h =>
    if allMatch s.link.devices h.named then
      match h.phase with
      | .isolatingDevices => s.isolated f h
      | .restoringDevices => s.askRestoreClose f h
      | .isolatingOpen | .testingClose | .testingHold | .restoringOpen | .restoringClose | .found | .cleared
      | .abandoned _ => s
    else s

/-- Permission Logic tells of a hunt-blocking cause newly present (08 R156). -/
def State.huntCause (s : State) (f : Feeder) (c : Cause) : State :=
  match s.hunts.get f with
  | none => s
  | some h =>
    match h.phase with
    | .isolatingOpen | .isolatingDevices => s.endHunt f (.abandoned .blocked) (some (.cause c))
    | .testingClose | .testingHold => (s.huntOpen f).1.endHunt f (.abandoned .blocked) (some (.cause c))
    | .restoringOpen | .restoringDevices | .restoringClose | .found | .cleared | .abandoned _ => s

/-- An exclusion set holds a section of a list, or the whole feeder. -/
def Exclusion.touches (x : Exclusion) (ns : List Nat) : Bool :=
  match x with
  | .wholeFeeder => true
  | .sections xs => ns.any xs.contains

/-- Permission Logic tells of a changed exclusion set (08 R157). -/
def State.huntExclusion (s : State) (f : Feeder) : State :=
  match s.hunts.get f with
  | none => s
  | some h =>
    let t := s.sections.get f
    let x := (s.cond.get f).exclusion
    let marked := { h with candidates := markPending .skipped (skipped t x) h.candidates }
    match h.phase with
    | .isolatingOpen => s.putHunt f (some marked)
    | .isolatingDevices => s.takeStep f marked
    | .testingClose | .testingHold =>
      let stop := match h.currentSection with
        | some n => skipped t x n || x.touches (energised t s.link.devices n)
        | none => true
      if stop then
        (s.putHunt f (some { marked with hold := none, current := none, phase := .isolatingOpen })).askOpen f
      else s.putHunt f (some marked)
    | .restoringOpen | .restoringDevices | .restoringClose | .found | .cleared | .abandoned _ => s

/-- The Pole Link tells of a hunt-owned device (08 R141, R158, 09 R180): `trouble` is an order refused, local control or a lost
device; `moved` is an acknowledged position that has changed away from the one desired. Either ends the hunt on a device named for
it, as R158 says; where one reply brings both, the trouble is the detail (log 25). Every other telling, on whichever hunt-owned
device, has the needed set judged afresh. -/
def State.huntDevice (s : State) (f : Feeder) (address : Nat) (trouble moved : Option DeviceTrouble) : State :=
  match s.hunts.get f with
  | none => s
  | some h =>
    let named := h.named.contains address
    if h.phase.testing then
      match if named then trouble.or moved else none with
      | some w => (s.huntOpen f).1.endHunt f (.abandoned .link) (some (.device address w))
      | none => s
    else if h.phase.devices then
      match if named then trouble else none with
      | some w => s.endHunt f (.abandoned .link) (some (.device address w))
      | none => s.judgeNeeded f
    else s

/-! ## The start of a hunt (08 R142 to R144) -/

/-- The record that a start builds (08 R144). -/
def newHunt (host : Bool) (budget : Nat) (l : Location) (numbers : List Nat) : Hunt where
  phase := .isolatingOpen
  hostStart := host
  candidates := numbers.map (fun n => ⟨n, .pending⟩)
  current := none
  budget := budget
  used := 0
  location := l
  hold := none
  isolating := none
  detail := none
  named := []

/-- The start of a hunt on a feeder in LOCKOUT (08 R144, 03 R64): the record is built, the feeder enters HUNT, and the first step
is taken. -/
def State.startHuntOn (s : State) (f : Feeder) (host : Bool) (l : Location) (numbers : List Nat) : State :=
  let h := newHunt host (s.activeGroup f).testBudget l numbers
  let s := (s.putHunt f (some h)).modSeq f
    (fun r => { r with state := .hunt .idle, shots := 0, tripElement := none })
  s.takeStep f h

/-- The Sequencer offers a feeder after an earth lockout (08 R142). -/
def State.offerHunt (s : State) (f : Feeder) : State :=
  let l := s.locate f
  let numbers := candidatesOf (s.sections.get f) l
  if (s.activeGroup f).huntEnabled ∧ (s.causes f).any Cause.blocksHunt = false ∧ numbers ≠ [] then
    s.startHuntOn f false l numbers
  else s

/-! ## The end of a trip (03 R47, R52) -/

/-- A lockout from TRIPPING of origin PROTECTION whose trip element is an earth one (03 R53). -/
def Seq.offered (r : Seq) (origin : TripOrigin) : Bool :=
  decide (origin = .protection) && (r.tripElement.map Element.earth).getD false

/-- The end of a trip: the breaker seen OPEN in TRIPPING (03 R52). -/
def State.endTrip (s : State) (f : Feeder) (origin : TripOrigin) (ontoFault : Bool) : State :=
  let g := s.activeGroup f
  let blocked := (s.causes f).any Cause.blocksReclose
  let s := s.modSeq f Seq.releaseTrip
  let r := s.seq.get f
  let out := fun (cause : LockoutCause) =>
    let s := s.lockout f cause r.tripElement
    if r.offered origin then s.offerHunt f else s
  match origin with
  | .hostOpen => out .hostOpen
  | .huntEnd => out .huntEnd
  | .protection =>
    if ontoFault then out .protection
    else if r.shots < g.shotCount then
      if blocked then out .blocked
      else s.modSeq f (fun r => { r with
        state := .deadTime, dead := some (((Ix4.ofPlace r.shots).map g.deadTimes.get).getD 0) })
    else out .protection

/-- The beginning of a trip (03 R48, R49, R61): the trip drive asserted, the running timers stopped, the trip-fail timer started,
TRIPPING. With the position OPEN the trip ends at the same event (03 R47). -/
def State.beginTrip (s : State) (f : Feeder) (origin : TripOrigin) (ontoFault : Bool) (element : Option Element) : State :=
  let time := s.tripFailTime f
  let s := s.modSeq f (fun r => { r.assertTrip.stopTimers with
    state := .tripping origin ontoFault, tripElement := element, tripFail := some time, huntTest := false })
  if (s.seq.get f).position = .opened then s.endTrip f origin ontoFault else s

/-- A trip request of the Element Engine (03 R48, R49, R66). -/
def State.tripRequest (s : State) (f : Feeder) (element : Element) : State :=
  let r := s.seq.get f
  match r.state with
  | .closed => s.beginTrip f .protection r.window.isSome (some element)
  | .reclaim => s.beginTrip f .protection r.window.isSome (some element)
  | .closing kind => s.beginTrip f .protection (decide (kind = .host)) (some element)
  | .deadTime | .lockout _ =>
    if r.position = .opened then s else s.beginTrip f .protection false (some element)
  | .tripping _ _ | .breakerFail _ => s
  | .hunt service => s.huntTrip f service

end Sys2Proof.Machine
end

