-- ==== Sys2Proof/Machine/Derive.lean ====
section
/-! DEFINITION. Permission Logic: what a derivation works out and what it hands on (06 R111 to R123, 05 R102). -/

namespace Sys2Proof.Machine

/-- A tag of a kind, LIVE or FROZEN, names a feeder (06 R116). -/
def State.tagged (s : State) (f : Feeder) (k : TagKind) : Bool := s.tags.any (fun t => decide (t.feeder = f ∧ t.kind = k))

/-- The district of a feeder: the one its constants name, or A while they are not VALID (05 R102, 02 R32). -/
def State.district (s : State) (f : Feeder) : District := ((s.constants f).map (·.district)).getD .a

/-- The effective level of a feeder (05 R102). -/
def State.level (s : State) (f : Feeder) : Nat :=
  if s.cal.clock.isNone then 5 else s.cal.levels.get (s.district f)

/-- A group record of a feeder is VALID. -/
def State.groupValid (s : State) (f : Feeder) (g : GroupNo) : Bool :=
  ((s.store.groups.get f).get g).validContent.isSome

/-- A requested group with its source, SAFE in its place when its record is not VALID (06 R113). -/
def State.request (s : State) (f : Feeder) (g : GroupNo) (source : GroupSource) : Option GroupNo × GroupSource :=
  if s.groupValid f g then (some g, source) else (none, .safeSubstitute)

/-- The active group of a feeder and its source, at an effective level (06 R113). -/
def State.chooseGroup (s : State) (f : Feeder) (level : Nat) : Option GroupNo × GroupSource :=
  match s.latch, s.constants f, (s.inputs.get f).forced with
  | true, some k, _ => s.request f (k.levelMap.get 5) .fallback
  | true, none, _ => (none, .fallback)
  | false, _, some g => s.request f g .forced
  | false, some k, none => s.request f (k.levelMap.get level) .levelMap
  | false, none, none => (none, .safeSubstitute)

/-- The hunt exclusion set of a feeder (06 R120). -/
def State.exclusionOf (s : State) (f : Feeder) : Exclusion :=
  let ts := s.tags.filter (fun t => decide (t.feeder = f ∧ t.kind = .huntExclude))
  if ts.any (fun t => t.scope.isEmpty) then .wholeFeeder else .sections (sortNums (ts.flatMap (·.scope)))

/-- The content of a group that a derivation has chosen. -/
def State.groupContent (s : State) (f : Feeder) : Option GroupNo → Group
  | some g => ((s.store.groups.get f).get g).validContent.getD safeGroup
  | none => safeGroup

/-- The block cause set of a feeder, at an effective level and under a group (06 R116, R117). -/
def State.causesOf (s : State) (f : Feeder) (level : Nat) (g : Group) : Causes where
  tagNoReclose := s.tagged f .noReclose
  tagNoClose := s.tagged f .noClose
  seasonReclose := decide (g.recloseCeiling ≤ level)
  seasonHunt := decide (g.huntCeiling ≤ level)
  measLost := (s.inputs.get f).measLost
  fallback := s.latch
  restorePending := (s.inputs.get f).restorePending
  hostBlock := (s.inputs.get f).hostBlock

/-- The Feeder Condition record that a derivation of a feeder works out (06 R122). -/
def State.conditionOf (s : State) (f : Feeder) : Condition :=
  let level := s.level f
  let chosen := s.chooseGroup f level
  let causes := s.causesOf f level (s.groupContent f chosen.1)
  { level := level
    group := chosen.1
    source := chosen.2
    causes := causes
    workMode := s.tagged f .noReclose
    wish := causes.any Cause.setsWish
    exclusion := s.exclusionOf f }

/-- Permission Logic sets the desired block of a RECLOSER from a wish; the mark of the field is cleared (06 R121, 09 R177). -/
def Device.wished (wish : Bool) (d : Device) : Device :=
  if d.kind = .recloser then
    { d with desiredBlock := some (if wish then .blocked else .unblocked), blockHeld := false }
  else d

/-- The desired block of every RECLOSER of a feeder set from a wish (06 R121). -/
def State.setWish (s : State) (f : Feeder) (wish : Bool) : State :=
  s.putDevices (s.link.devices.mapAll (fun _ d => if d.feeder = f then d.wished wish else d))

/-- The Sequencer told of a reclose-blocking cause newly present (03 R55): a running dead time ends in LOCKOUT, which is not
offered to the Hunt Unit. -/
def State.sequenceCause (s : State) (f : Feeder) : State :=
  if (s.seq.get f).state = .deadTime then s.lockout f .blocked none else s

/-- What a derivation hands on when the record has changed from `old` to `new` (06 R122, R123): the LEVEL_CHANGE notice, the
desired blocks, the tellings of causes, and the telling of the exclusion set (log 29). -/
def State.handOn (s : State) (f : Feeder) (old new : Condition) : State :=
  let fresh := Causes.fresh old.causes new.causes
  let s := if old.level = new.level then s else s.give (.feeder f) (.levelChange old.level new.level)
  let s := if old.wish = new.wish then s else s.setWish f new.wish
  let s := if fresh.any Cause.blocksReclose then s.sequenceCause f else s
  let s := match fresh.find? Cause.blocksHunt with
    | some c => s.huntCause f c
    | none => s
  if old.exclusion = new.exclusion then s else s.huntExclusion f

/-- A derivation of a feeder (06 R122). -/
def State.derive (s : State) (f : Feeder) : State :=
  let old := s.cond.get f
  let new := s.conditionOf f
  ({ s with cond := s.cond.set f new }).handOn f old new

/-- A derivation of several feeders, in turn. -/
def State.deriveMany (s : State) (fs : List Feeder) : State := fs.foldl State.derive s

/-- The feeders of a district. -/
def State.feedersOf (s : State) (d : District) : List Feeder := Ix4.all.filter (fun f => decide (s.district f = d))

/-- A derivation at a warm reset: LEVEL_CHANGE alone is handed on, and the desired blocks are set from the wish whether or not it
has changed (06 R125). -/
def State.deriveQuietly (s : State) (f : Feeder) : State :=
  let old := s.cond.get f
  let new := s.conditionOf f
  let s := { s with cond := s.cond.set f new }
  let s := if old.level = new.level then s else s.give (.feeder f) (.levelChange old.level new.level)
  s.setWish f new.wish

end Sys2Proof.Machine
end

