-- ==== Sys2Proof/Machine/TagTable.lean ====
section
/-! DEFINITION. The Tag Table: finding, retiring and expiring tags, and bad attempts (04). -/

namespace Sys2Proof.Machine

/-- The tag that bears a number. -/
def State.findTag (s : State) (number : Nat) : Option Tag := s.tags.find? (fun t => decide (t.number = number))

/-- The position of a tag in placement order, from 1 (04 R69). -/
def State.tagPosition (s : State) (number : Nat) : Nat := s.tags.findIdx (fun t => decide (t.number = number)) + 1

/-- Changes the tag that bears a number; it keeps its place. -/
def State.modTag (s : State) (number : Nat) (g : Tag → Tag) : State :=
  { s with tags := s.tags.map (fun t => if t.number = number then g t else t) }

/-- A tag is retired: it leaves the table, and Permission Logic is told of its feeder (04 R79, R71). -/
def State.retireTag (s : State) (t : Tag) : State :=
  ({ s with tags := s.tags.filter (fun u => decide (u.number ≠ t.number)) }).derive t.feeder

/-- A section of a feeder is named by a tag, LIVE or FROZEN (04 R71). -/
def State.tagNames (s : State) (f : Feeder) (n : Nat) : Bool :=
  s.tags.any (fun t => decide (t.feeder = f) && t.scope.contains n)

/-- A bad attempt on a LIVE tag (04 R77): the third sets it FROZEN and gives TAG_FROZEN. -/
def State.badAttempt (s : State) (t : Tag) (by_ : Holder) : State :=
  let n := t.badAttempts + 1
  let s := s.modTag t.number (fun t => { t with badAttempts := n, frozen := decide (3 ≤ n) })
  if 3 ≤ n then s.give (.feeder t.feeder) (.tagFrozen t.number by_) else s

/-- A LIVE tag whose expiry minute is at or before a minute (04 R80). -/
def Tag.expired (now : Minute) (t : Tag) : Bool :=
  !t.frozen && match t.expiry with
    | some e => e.le now
    | none => false

/-- The TAG_EXPIRED notice of a feeder, of the last of its tags retired (04 R80). -/
def State.expiryNotice (gone : List Tag) (s : State) (f : Feeder) : State :=
  match (gone.filter (fun t => decide (t.feeder = f))).getLast? with
  | some t => s.give (.feeder f) (.tagExpired t.number t.holder)
  | none => s

/-- The LIVE tags whose expiry has been reached leave the table, with a notice for each feeder that loses one (04 R80). The answer
names those feeders. -/
def State.expireTags (s : State) (now : Minute) : State × List Feeder :=
  let gone := s.tags.filter (Tag.expired now)
  let fs := Ix4.all.filter (fun f => gone.any (fun t => decide (t.feeder = f)))
  let s := { s with tags := s.tags.filter (fun t => !t.expired now) }
  (fs.foldl (State.expiryNotice gone) s, fs)

/-- The same, Permission Logic being told of each feeder concerned (04 R80, R81). -/
def State.expireAndTell (s : State) (now : Minute) : State :=
  let r := s.expireTags now
  r.1.deriveMany r.2

end Sys2Proof.Machine
end

