-- ==== Sys2Proof/Machine/CalendarUnit.lean ====
section
/-! DEFINITION. The Season Calendar: the tick and its carries, the season windows, the declarations, the schedule, and the levels
of the districts (05). -/

namespace Sys2Proof.Machine

/-! ## Dates (05 R90) -/

/-- The day after a day; the year runs on past 2099. -/
def nextDay (m : Minute) : Minute :=
  if m.day < monthLength m.year m.month then { m with day := m.day + 1 }
  else if m.month < 12 then { m with month := m.month + 1, day := 1 }
  else { m with year := m.year + 1, month := 1, day := 1 }

/-- A number of days later. -/
def addDays : Nat → Minute → Minute
  | 0, m => m
  | n + 1, m => addDays n (nextDay m)

/-- The last minute of 2099. -/
def lastMinute : Minute := ⟨2099, 12, 31, 23, 59⟩

/-- A minute a number of minutes later, worked in calendar minutes and clamped to the last minute of 2099 (05 R105). -/
def addMinutes (m : Minute) (n : Nat) : Minute :=
  let total := m.hour * 60 + m.minute + n
  let r := addDays (total / 1440) { m with hour := total % 1440 / 60, minute := total % 60 }
  if r.laterThan lastMinute then lastMinute else r

/-- What a second tick makes of the calendar fields, and the carry that makes it a minute change, if any (05 R90). -/
def Clock.tick (c : Clock) : Clock × Option Carry :=
  if c.second < 59 then ({ c with second := c.second + 1 }, none)
  else
    let m := c.minute
    if m.minute < 59 then ({ c with second := 0, minute := { m with minute := m.minute + 1 } }, some ⟨false, false⟩)
    else if m.hour < 23 then
      ({ c with second := 0, minute := { m with hour := m.hour + 1, minute := 0 } }, some ⟨false, false⟩)
    else
      let n := nextDay { m with hour := 0, minute := 0 }
      let wraps := decide (2099 < n.year)
      (⟨if wraps then { n with year := 2000 } else n, 0, if c.weekday < 6 then c.weekday + 1 else 0⟩, some ⟨true, wraps⟩)

/-- The length of a second reached by a carry from second 59 (05 R89). -/
def trimmedSecond (trim : Int) : Nat := ((plainSecond : Int) - 2 * trim).toNat

/-- The calendar's own part of a second tick (05 R89, R90): the calendar, and the carry that makes the tick a minute change, if
any. -/
def Calendar.tick (c : Calendar) : Calendar × Option Carry :=
  match c.clock with
  | none => ({ c with prescaler := 0, secondLength := plainSecond }, none)
  | some k =>
    let r := k.tick
    ({ c with
      clock := some r.1
      prescaler := 0
      secondLength := if r.2.isSome then trimmedSecond c.trim else plainSecond }, r.2)

/-! ## Windows (05 R95 to R97) -/

/-- A month and day stands at or before another in the year. -/
def dateLe (x y : Nat × Nat) : Bool := decide (x.1 < y.1 ∨ (x.1 = y.1 ∧ x.2 ≤ y.2))

/-- The start of a window in a year, month and day (05 R95). -/
def Window.startIn (w : Window) (year : Nat) : Nat × Nat :=
  if w.startMonth = 2 ∧ w.startDay = 29 ∧ leap year = false then (3, 1) else (w.startMonth, w.startDay)

/-- The end of a window in a year, month and day (05 R95). -/
def Window.endIn (w : Window) (year : Nat) : Nat × Nat :=
  if w.endMonth = 2 ∧ w.endDay = 29 ∧ leap year = false then (2, 28) else (w.endMonth, w.endDay)

/-- A window of February 29 alone. -/
def Window.leapDay (w : Window) : Bool :=
  decide (w.startMonth = 2 ∧ w.startDay = 29 ∧ w.endMonth = 2 ∧ w.endDay = 29)

/-- A window covers a date; one whose start stands after its end wraps the end of the year (05 R95). -/
def Window.covers (w : Window) (year month day : Nat) : Bool :=
  let a := w.startIn year
  let b := w.endIn year
  let d := (month, day)
  if w.leapDay ∧ leap year = false then false
  else if dateLe a b then dateLe a d && dateLe d b
  else dateLe a d || dateLe d b

/-- The activity that an evaluation of a slot finds (05 R96). -/
def Calendar.activity (c : Calendar) (i : Ix4) : Bool :=
  match c.windows.get i, c.clock with
  | some w, some k => w.enabled && w.covers k.minute.year k.minute.month k.minute.day
  | _, _ => false

/-- The floor that a slot puts under a district. -/
def Calendar.slotFloor (c : Calendar) (d : District) (i : Ix4) : Nat :=
  match c.windows.get i with
  | some w => if c.active.get i ∧ w.districts.has d then w.floor else 0
  | none => 0

/-- A district's season floor (05 R97). -/
def Calendar.floorOf (c : Calendar) (d : District) : Nat :=
  max (max (c.slotFloor d .n1) (c.slotFloor d .n2)) (max (c.slotFloor d .n3) (c.slotFloor d .n4))

/-- Both floors derived anew. -/
def Calendar.settleFloors (c : Calendar) : Calendar := { c with floors := ⟨c.floorOf .a, c.floorOf .b⟩ }

/-- One slot evaluated, and the floors derived (05 R94, R96). -/
def Calendar.evaluate (c : Calendar) (i : Ix4) : Calendar :=
  ({ c with active := c.active.set i (c.activity i) }).settleFloors

/-- Every slot evaluated, and the floors derived (05 R96). -/
def Calendar.evaluateAll (c : Calendar) : Calendar := ({ c with active := Four.build c.activity }).settleFloors

/-! ## Declarations and levels (05 R98 to R101) -/

/-- A declaration written into the slot of each district of a mask, or the slots made EMPTY. -/
def writeDeclaration (m : Mask) (d : Option Declaration) (p : Pair (Option Declaration)) : Pair (Option Declaration) :=
  ⟨if m.a then d else p.a, if m.b then d else p.b⟩

/-- A declaration whose until-minute is at or before a minute is cleared (05 R100). -/
def clearReached (now : Minute) (d : Option Declaration) : Option Declaration :=
  match d with
  | some ⟨l, some u⟩ => if u.le now then none else some ⟨l, some u⟩
  | some ⟨l, none⟩ => some ⟨l, none⟩
  | none => none

/-- At the wrap of the year every declaration that holds an until is cleared (05 R100). -/
def clearTimed (d : Option Declaration) : Option Declaration :=
  match d with
  | some ⟨_, some _⟩ => none
  | some ⟨l, none⟩ => some ⟨l, none⟩
  | none => none

/-- The declarations that a minute change leaves (05 R100). `kept` are the districts whose slot an entry of the schedule has
already written in the same minute: the slot ends the minute holding what the entry gave it. -/
def Calendar.expireDeclarations (c : Calendar) (now : Minute) (wrap : Bool) (kept : Mask) : Calendar :=
  let g := fun (keep : Bool) d => if keep then d else if wrap then clearTimed d else clearReached now d
  { c with declarations := ⟨g kept.a c.declarations.a, g kept.b c.declarations.b⟩ }

/-- A district's level (05 R101). -/
def Calendar.levelOf (c : Calendar) (d : District) : Nat :=
  max (c.floors.get d) (((c.declarations.get d).map (·.level)).getD 0)

/-- The districts whose level differs from the one held. -/
def Calendar.moved (c : Calendar) : List District := District.all.filter (fun d => decide (c.levelOf d ≠ c.levels.get d))

/-- Both levels recorded as derived. -/
def Calendar.settleLevels (c : Calendar) : Calendar := { c with levels := ⟨c.levelOf .a, c.levelOf .b⟩ }

/-- The levels of the districts are derived anew, and Permission Logic is told of each district whose level has changed (05
R101). -/
def State.settleLevels (s : State) : State :=
  let ds := s.cal.moved
  let s := { s with cal := s.cal.settleLevels }
  s.deriveMany (Ix4.all.filter (fun f => ds.contains (s.district f)))

/-- The calendar changes and its levels are derived. -/
def State.recalendar (s : State) (g : Calendar → Calendar) : State := ({ s with cal := g s.cal }).settleLevels

/-! ## The schedule (05 R104 to R106) -/

/-- An entry matches a minute (05 R104). -/
def Recurrence.fits (r : Recurrence) (m : Minute) (weekday : Nat) : Bool :=
  match r with
  | .daily h mi => decide (h = m.hour ∧ mi = m.minute)
  | .weekly w h mi => decide (w = weekday ∧ h = m.hour ∧ mi = m.minute)
  | .monthly d h mi => decide (d = m.day ∧ h = m.hour ∧ mi = m.minute)
  | .yearly mo d h mi => decide (mo = m.month ∧ d = m.day ∧ h = m.hour ∧ mi = m.minute)
  | .once n => decide (n = m)

/-- An action on the declaration slots, at a minute (05 R105). -/
def Action.act (a : Action) (now : Minute) (p : Pair (Option Declaration)) : Pair (Option Declaration) :=
  match a with
  | .declare m l d => writeDeclaration m (some ⟨l, d.map (addMinutes now)⟩) p
  | .lift m => writeDeclaration m none p

/-- The districts of an action (05 R103). -/
def Action.districts : Action → Mask
  | .declare m _ _ => m
  | .lift m => m

/-- What an entry becomes by its firing (05 R106). -/
def Entry.fired (e : Entry) : Option Entry :=
  match e.repeats with
  | none => some e
  | some 0 => none
  | some (n + 1) => some { e with repeats := some n }

/-- The firing of a minute over the schedule, in ascending slot order (05 R105, R106). -/
def fire (now : Minute) (weekday : Nat) : Table Entry → Pair (Option Declaration) → Table Entry × Pair (Option Declaration)
  | [], p => ([], p)
  | (n, e) :: rest, p =>
    if e.recurrence.fits now weekday then
      let r := fire now weekday rest (e.action.act now p)
      match e.fired with
      | some e => ((n, e) :: r.1, r.2)
      | none => r
    else
      let r := fire now weekday rest p
      ((n, e) :: r.1, r.2)

/-- The firing of the current minute. -/
def Calendar.fire (c : Calendar) (k : Clock) : Calendar :=
  let r := Machine.fire k.minute k.weekday c.schedule c.declarations
  { c with schedule := r.1, declarations := r.2 }

/-- Some entry that the current minute fires acts on a district. -/
def Calendar.fires (c : Calendar) (k : Clock) (d : District) : Bool :=
  c.schedule.any (fun p => p.2.recurrence.fits k.minute k.weekday && p.2.action.districts.has d)

/-- The ONCE entries whose minute is at or before a minute are retired unfired (05 R93, R106). -/
def Calendar.retireOnce (c : Calendar) (now : Minute) : Calendar :=
  { c with schedule := c.schedule.filter (fun p =>
    match p.2.recurrence with
    | .once m => !m.le now
    | .daily _ _ | .weekly _ _ _ | .monthly _ _ _ | .yearly _ _ _ _ => true) }

/-! ## The minute change (05 R91) -/

/-- One of the four takes a minute change. `kept` are the districts whose slot the schedule has written before the declarations
take it (05 R100). -/
def State.takeMinute (k : Clock) (d : Carry) (kept : Mask) (s : State) : MinuteTaker → State
  | .tags => s.expireAndTell k.minute
  | .declarations => s.recalendar (fun c => c.expireDeclarations k.minute d.yearWrap kept)
  | .schedule => s.recalendar (fun c => c.fire k)
  | .windows => if d.dateChange ∨ d.yearWrap then s.recalendar Calendar.evaluateAll else s

/-- The takers in the order in which R91 lists them. -/
def MinuteTaker.all : List MinuteTaker := [.tags, .declarations, .schedule, .windows]

/-- The first of each in a list, with the missing ones of the four after them in the order of R91. -/
def wholeOrder (order : List MinuteTaker) : List MinuteTaker := (order ++ MinuteTaker.all).eraseDups

/-- The schedule stands before the declarations in an order. -/
def scheduleFirst (order : List MinuteTaker) : Bool := (order.takeWhile (fun x => decide (x ≠ .declarations))).contains .schedule

/-- The districts whose slot the schedule writes before the declarations take the minute change (05 R100). -/
def Calendar.kept (c : Calendar) (k : Clock) (order : List MinuteTaker) : Mask :=
  ⟨scheduleFirst order && c.fires k .a, scheduleFirst order && c.fires k .b⟩

/-- A minute change is handed on (05 R91), in an order of the takers (log 10). -/
def State.minuteChange (s : State) (k : Clock) (d : Carry) (order : List MinuteTaker) : State :=
  order.foldl (State.takeMinute k d (s.cal.kept k order)) s

/-- A second tick at the Season Calendar: the fields advance, and a carry is handed on at that same event (05 R89 to R91). -/
def State.tickCalendar (s : State) (order : List MinuteTaker) : State :=
  let r := s.cal.tick
  let s := { s with cal := r.1 }
  match r.2, r.1.clock with
  | some d, some k => s.minuteChange k d order
  | _, _ => s

/-! ## SET_CALENDAR (05 R93) -/

/-- What an accepted set does, from the fields it carries (05 R93; the order of the tellings is log 29). -/
def State.setClock (s : State) (k : Clock) : State :=
  let unset := s.cal.clock.isNone
  let c := { s.cal with
    clock := some k
    prescaler := 0
    secondLength := plainSecond }
  let c := ((c.evaluateAll).expireDeclarations k.minute false ⟨false, false⟩).retireOnce k.minute
  let s := ({ s with cal := c }).expireAndTell k.minute
  let s := s.settleLevels
  if unset then s.deriveMany Ix4.all else s

/-! ## The end of a warm reset (05 R109) -/

/-- The carries of two runs of ticks, taken together. -/
def Carry.join : Option Carry → Option Carry → Option Carry
  | some d, some e => some ⟨d.dateChange || e.dateChange, d.yearWrap || e.yearWrap⟩
  | some d, none => some d
  | none, x => x

/-- The calendar keeps time over a number of second ticks that fall while a warm reset is applied, and hands on no minute change
(05 R109); the answer says whether one fell. -/
def Calendar.keepTime : Nat → Calendar → Calendar × Option Carry
  | 0, c => (c, none)
  | n + 1, c =>
    let r := c.tick
    let q := Calendar.keepTime n r.1
    (q.1, Carry.join r.2 q.2)

/-- The calendar at the end of a warm reset, its levels derived but not yet told (05 R109, 04 R81). What a year wrap in the reset
does is log 28: it clears the declarations with an until, and a tag whose expiry in 2099 was passed stays, since the tags are judged
against the minute at the end alone. -/
def State.calendarAfterReset (s : State) (ticks : Nat) : State :=
  let r := Calendar.keepTime ticks s.cal
  match r.1.clock with
  | none => { s with cal := r.1 }
  | some k =>
    let c := (r.1.evaluateAll).expireDeclarations k.minute ((r.2.map (·.yearWrap)).getD false) ⟨false, false⟩
    let c := if r.2.isSome then c.fire k else c
    (({ s with cal := c.settleLevels }).expireTags k.minute).1

end Sys2Proof.Machine
end

