-- ==== Sys2Proof/Machine/LinkUnit.lean ====
section
/-! DEFINITION. The Pole Link: the classes of service, the arbiter's choice, the orders and their replies, and LINK_CLEAR (09). -/

namespace Sys2Proof.Machine

/-! ## Frames (11 R209, R210) -/

/-- The number of an order code (11 R209). -/
def OrderCode.place : OrderCode → Nat
  | .status => 0
  | .openSwitch => 1
  | .closeSwitch => 2
  | .blockReclose => 3
  | .unblockReclose => 4

/-- The six bytes of a frame that the link sends (11 R209). -/
def LinkFrame.bytes : LinkFrame → List Byte
  | .clear => withCrc [byte 0, byte 0, byte 5, byte 0]
  | .order a r c t => withCrc [byte a, byte r, byte c.place, byte t]

/-- The result of a reply (11 R210). -/
inductive ReplyResult where
  | done | refused | local
  deriving DecidableEq, Repr

def ReplyResult.ofPlace : Nat → Option ReplyResult
  | 0 => some .done
  | 1 => some .refused
  | 2 => some .local
  | _ => none

/-- The position of a reply (11 R210). -/
def replyPosition : Nat → Option SwitchPos
  | 0 => some .opened
  | 1 => some .closed
  | _ => none

/-- The block of a reply (11 R210). -/
def replyBlock : Nat → Option BlockPos
  | 0 => some .unblocked
  | 1 => some .blocked
  | _ => none

/-- A reply frame that has passed the checks of R175 and R210 that need no device record. -/
structure ReplyFrame where
  address : Nat
  tag : Nat
  result : ReplyResult
  position : SwitchPos
  block : Option BlockPos
  deriving DecidableEq, Repr

/-- Reads a reply frame: exactly seven bytes, the CRC-16 checks, and the result and position are named values (11 R210). -/
def readReplyFrame (frame : List Byte) (cut : Bool) : Option ReplyFrame :=
  match frame with
  | [a, t, r, p, b, _, _] =>
    if cut ∨ crcChecks frame = false then none
    else
      match ReplyResult.ofPlace r.toNat, replyPosition p.toNat with
      | some r, some p => some ⟨a.toNat, t.toNat, r, p, replyBlock b.toNat⟩
      | _, _ => none
  | _ => none

/-! ## Records -/

/-- The reply timer of a device: 400 ms for tier 1 and 1000 ms for tier 2 (09 R172). -/
def Device.replyTime (d : Device) : Nat := if d.relay.isNone then 400 else 1000

/-- The relay byte of a frame to a device (11 R209). -/
def Device.relayByte (d : Device) : Nat := d.relay.getD 0

/-- The frame of an order to a device. -/
def Device.frame (address : Nat) (d : Device) (o : Order) : LinkFrame := .order address d.relayByte o.code o.tag

/-- The acknowledged states as a reply gives them; the block is a RECLOSER's alone (09 R176, 11 R210). -/
def Device.acknowledge (p : SwitchPos) (b : Option BlockPos) (d : Device) : Device :=
  { d with ack := some p, ackBlock := if d.kind = .recloser then b else none }

/-- A device that is REACHABLE, its probe timer stopped. -/
def Device.reachable (d : Device) : Device := { d with reach := .reachable, probe := none, probeDue := false }

/-- A device whose probe timer starts (09 R174, R178). -/
def Device.lost (r : Reach) (d : Device) : Device := { d with reach := r, probe := some probeTime, probeDue := false }

/-- The desired position is NONE or equals the acknowledged one (09 R164). -/
def Device.positionMet (d : Device) : Bool := d.desired.isNone || decide (d.desired = d.ack)

/-- The held-back marks that a REFUSED to an order sets (09 R177). -/
def Device.holdBack (code : OrderCode) (d : Device) : Device :=
  { d with
    posHeld := d.posHeld || (code.position && !d.positionMet)
    blockHeld := d.blockHeld || (code.block && !blockMet d.desiredBlock d.ackBlock) }

/-- A device record after LINK_CLEAR (09 R181). -/
def Device.cleared (d : Device) : Device :=
  { d with
    ack := none
    ackBlock := none
    posHeld := false
    blockHeld := false
    inFlight := none
    lastTag := none
    reach := .reachable
    probe := none
    probeDue := false }

/-! ## Service (09 R168 to R170) -/

/-- The position conditions of classes 1 and 3 (09 R168). -/
def Device.positionNeed (d : Device) : Bool :=
  !d.positionMet && !d.posHeld && decide (d.reach = .reachable)

/-- A device needs service in a class (09 R168). -/
def Device.needs (d : Device) : ServiceClass → Bool
  | .huntPosition => decide (d.owner = .hunt) && d.positionNeed
  | .block =>
    decide (d.kind = .recloser) && !blockMet d.desiredBlock d.ackBlock && !d.blockHeld && decide (d.reach = .reachable)
  | .hostPosition => decide (d.owner = .host) && d.positionNeed
  | .probe => decide (d.reach ≠ .reachable) && d.probeDue

/-- The classes in order (09 R168). -/
def ServiceClass.all : List ServiceClass := [.huntPosition, .block, .hostPosition, .probe]

/-- The index of a class among the four addresses last chosen (09 R170). -/
def ServiceClass.index : ServiceClass → Ix4
  | .huntPosition => .n1
  | .block => .n2
  | .hostPosition => .n3
  | .probe => .n4

/-- The order of a class for a device (09 R168). -/
def Device.orderFor (d : Device) : ServiceClass → OrderCode
  | .huntPosition | .hostPosition => if d.desired = some .closed then .closeSwitch else .openSwitch
  | .block => if d.desiredBlock = some .blocked then .blockReclose else .unblockReclose
  | .probe => .status

/-- A device may be chosen in a class: it needs service there, and has no order in flight and no resend waiting (09 R168). -/
def Link.eligible (l : Link) (c : ServiceClass) (address : Nat) (d : Device) : Bool :=
  d.needs c && d.inFlight.isNone && !l.resends.contains address

/-- The first address of an ascending list after a last one, wrapping to the lowest (09 R170). -/
def nextAfter (last : Nat) (ns : List Nat) : Option Nat :=
  (ns.find? (fun a => decide (last < a))).or ns.head?

/-- The address chosen in a class. -/
def Link.chooseIn (l : Link) (c : ServiceClass) : Option Nat :=
  nextAfter ((l.lastChosen.get c.index).getD 0) (l.devices.pick (l.eligible c))

/-- The class and the address that the arbiter chooses (09 R170): the lowest class in which any eligible device needs service. -/
def Link.choose (l : Link) : Option (ServiceClass × Nat) :=
  ServiceClass.all.findSome? (fun c => (l.chooseIn c).map (fun a => (c, a)))

/-- The transmitter is free to start a frame (09 R169). -/
def Link.free (l : Link) : Bool := l.sending.isNone && !l.carrier

/-- The tag that the next order to a device takes (09 R172). -/
def Link.nextTag (l : Link) (d : Device) : Nat :=
  if d.lastTag = some l.tagCounter then (l.tagCounter + 1) % 16 else l.tagCounter

/-- The issue of an order of a class to a device (09 R170, R172). -/
def Link.issue (l : Link) (c : ServiceClass) (address : Nat) (d : Device) : Link :=
  let o : Order := ⟨d.orderFor c, l.nextTag d, 1, none⟩
  { l with
    devices := l.devices.modify address
      (fun d => { d with inFlight := some o, probeDue := d.probeDue && decide (c ≠ .probe) })
    sending := some (d.frame address o)
    tagCounter := (o.tag + 1) % 16
    lastChosen := l.lastChosen.set c.index (some address) }

/-- The arbiter makes a choice, where R170 allows one. -/
def Link.arbitrate (l : Link) : Link :=
  if l.free ∧ l.clearWaits = false ∧ l.resends = [] ∧ inFlightCount l.devices < l.limit then
    match l.choose with
    | some (c, a) =>
      match l.devices.find a with
      | some d => l.issue c a d
      | none => l
    | none => l
  else l

/-- The first waiting resend starts, where R169 allows it: the same code and the same tag (09 R173). -/
def Link.startResend (l : Link) : Link :=
  if l.free ∧ l.clearWaits = false then
    match l.resends with
    | a :: rest =>
      match l.devices.find a with
      | some d =>
        match d.inFlight with
        | some o => { l with sending := some (d.frame a o), resends := rest }
        | none => { l with resends := rest }
      | none => { l with resends := rest }
    | [] => l
  else l

/-- The waiting clear frame starts, where R169 allows it (09 R181). -/
def Link.startClear (l : Link) : Link :=
  if l.free ∧ l.clearWaits then { l with sending := some .clear, clearWaits := false } else l

/-- A device at a frame-sent event (09 R172): the last tag sent, and the reply timer of an order still in flight. -/
def Device.sent (tag : Nat) (d : Device) : Device :=
  { d with
    lastTag := some tag
    inFlight := d.inFlight.map (fun o => if o.tag = tag then { o with timer := some d.replyTime } else o) }

/-- The frame-sent event (09 R169, R172). -/
def Link.frameSent (l : Link) : Link :=
  match l.sending with
  | none => l
  | some .clear => { l with sending := none }
  | some (.order a _ _ tag) => { l with sending := none, devices := l.devices.modify a (Device.sent tag) }

/-- LINK_CLEAR at the Pole Link (09 R181). -/
def Link.clear (l : Link) : Link :=
  { l with devices := l.devices.mapAll (fun _ d => d.cleared), clearWaits := true, resends := [] }

/-- The hunt of a feeder owns a device. -/
def State.ownsDevice (s : State) (f : Feeder) : Bool := s.link.devices.any (fun p => p.2.owned f)

/-- LINK_CLEAR with its telling (09 R181, 08 R141): every hunt that owns a device judges its needed set afresh from the UNKNOWN
acknowledgements, which match nothing. -/
def State.clearLink (s : State) : State :=
  Ix4.all.foldl (fun s f => if s.ownsDevice f then s.judgeNeeded f else s) { s with link := s.link.clear }

/-! ## Orders that end -/

/-- The acknowledged position as a trouble of a hunt (08 R158). -/
def SwitchPos.trouble : SwitchPos → DeviceTrouble
  | .opened => .ackOpened
  | .closed => .ackClosed

/-- The trouble of a change of acknowledged position away from the desired one (08 R158). -/
def movedAway (old new : Device) : Option DeviceTrouble :=
  if old.ack = new.ack ∨ new.ack = new.desired then none else new.ack.map SwitchPos.trouble

/-- A device record is written at the end of an order; the Hunt Unit is told when it owns the device (09 R180). -/
def State.endOrder (s : State) (address : Nat) (old new : Device) (trouble : Option DeviceTrouble) : State :=
  let s := { s with link := { s.link with
    devices := s.link.devices.modify address (fun _ => { new with inFlight := none })
    resends := s.link.resends.filter (· != address) } }
  if old.owner = .hunt then s.huntDevice old.feeder address trouble (movedAway old new) else s

/-- The Pole Link gives a LINK_FAULT notice (09 R174, R177, R178). -/
def State.linkFault (s : State) (f : Feeder) (address : Nat) (w : LinkTrouble) : State :=
  s.give (.feeder f) (.linkFault address w)

/-- A reply that completes an order (09 R176 to R178). -/
def State.completeOrder (s : State) (r : ReplyFrame) (d : Device) (o : Order) : State :=
  let d' := d.acknowledge r.position r.block
  match r.result with
  | .done => s.endOrder r.address d d'.reachable none
  | .refused =>
    if o.code = .status then s.endOrder r.address d d'.reachable none
    else (s.linkFault d.feeder r.address .refused).endOrder r.address d (d'.reachable.holdBack o.code) (some .refused)
  | .local => (s.linkFault d.feeder r.address .local).endOrder r.address d (d'.lost .local) (some .local)

/-- A reply frame is taken, when it matches an order in flight by address and tag (09 R175). For a RECLOSER a block byte other
than 0 or 1 discards the frame (11 R210). -/
def State.takeReply (s : State) (r : ReplyFrame) : State :=
  match s.link.devices.find r.address with
  | none => s
  | some d =>
    match d.inFlight with
    | none => s
    | some o =>
      if o.tag = r.tag ∧ (d.kind = .recloser → r.block.isSome) then s.completeOrder r d o else s

/-- The expiry of a reply timer, which has run down (09 R173, R174, log 3). The drop of a probe to a device that is UNREACHABLE already
is no trouble to its hunt (log 47). -/
def State.replyExpires (s : State) (address : Nat) : State :=
  match s.link.devices.find address with
  | none => s
  | some d =>
    match d.inFlight with
    | none => s
    | some o =>
      if o.timer ≠ some 0 then s
      else if o.sends = 1 then
        { s with link := { s.link with
          devices := s.link.devices.modify address (fun d => { d with inFlight := some { o with sends := 2, timer := none } })
          resends := s.link.resends ++ [address] } }
      else
        let trouble := if d.reach = .unreachable then none else some DeviceTrouble.unreachable
        (s.linkFault d.feeder address .noReply).endOrder address d
          { d.lost .unreachable with ack := none, ackBlock := none } trouble

/-- The expiry of a probe timer, which has run down (09 R179, log 3). -/
def State.probeExpires (s : State) (address : Nat) : State :=
  match s.link.devices.find address with
  | none => s
  | some d =>
    if d.probe = some 0 ∧ d.reach ≠ .reachable then
      s.modDevice address (fun d => { d with probe := none, probeDue := true })
    else s

end Sys2Proof.Machine
end

