-- ==== Sys2Proof/Machine/ResetUnit.lean ====
section
/-! DEFINITION. The warm reset of the part, block by block (00 section 6.4; 01 R25, 02 R44, 03 R67, 04 R85, 05 R109, 06 R125, 07
R139, 08 R162, 09 R183, 10 R195, 11 R204). -/

namespace Sys2Proof.Machine

/-- The Attention Unit at the start of a warm reset (10 R195): the pending set emptied, the mask and the count 0; the supervision
timer runs from the end of the reset. -/
def Attention.warm (a : Attention) : Attention :=
  { a with notices := [], mask := 0, line := false, timer := supervisionTimer a.period, expiries := 0 }

/-- The store at a warm reset (02 R44). -/
def Store.warm (t : Store) : Store := { t with staging := .closed, scrub := 1 }

/-- The inputs of a feeder at a warm reset (06 R125). -/
def Inputs.warm (i : Inputs) : Inputs := { i with measLost := false }

/-- The hunt of a feeder at a warm reset: one that runs is ended ABANDONED(RESET), without a notice (08 R162). -/
def State.warmHunt (s : State) (f : Feeder) : State :=
  match s.hunts.get f with
  | some h => if h.phase.final then s else s.finishHunt f h (.abandoned .reset) none
  | none => s

/-- The Pole Link at a warm reset (09 R183): a frame being sent is cut short, and LINK_CLEAR is made. -/
def Link.warm (l : Link) (carrier : Bool) : Link := ({ l with sending := none, carrier := carrier }).clear

/-- The Command Port at the end of a warm reset (11 R204, R206). -/
def Port.warm (p : Port) (kind : StartKind) (selected : Bool) : Port :=
  let n := min 255 (p.warmCount + 1)
  ⟨startReason kind n p.marker, kind, n, p.marker, phaseAfterReset selected⟩

/-- The blocks that a warm reset sets without reading another: all but the calendar, the tags and the conditions. -/
def State.warmBlocks (s : State) (pins : Pins) : State :=
  let s := Ix4.all.foldl State.warmHunt s
  { s with
    contacts := pins.contacts
    backup := false
    sample := Four.fill coldSample
    engine := Four.fill coldEngine
    store := s.store.warm
    seq := pins.contacts.map (resetSeq .warmReset)
    inputs := s.inputs.map Inputs.warm
    latch := false
    link := s.link.warm pins.carrier
    att := s.att.warm }

/-- A warm reset (11 R203, R204): each block by its chapter, then the calendar as the reset ends, then one derivation of each
feeder (06 R125), then the start reason. -/
def State.warmReset (s : State) (kind : StartKind) (pins : Pins) : State :=
  let s := (s.warmBlocks pins).calendarAfterReset pins.ticks
  let s := Ix4.all.foldl State.deriveQuietly s
  { s with port := s.port.warm kind pins.selected }

/-- The input pins as the part last took them, for the reset that a transaction performs: nCS has just risen, and no second passes
(log 11). -/
def State.pinsAsTaken (s : State) : Pins := ⟨s.contacts, s.link.carrier, false, 0⟩

/-- The end of a transaction that is not empty performs a warm reset that is pending (11 R203). -/
def State.performReset (s : State) (pins : Pins) : State := s.warmReset .warmCommand pins

/-- The end of a transaction that is not empty (11 R203, R206): it is judged while the port is ready, it performs a pending
RESET_PART, and of one that a reset cut short nothing is judged: the port has seen nCS high, and is ready. -/
def State.endTransaction (s : State) (judge : State → State) : State :=
  match s.port.phase with
  | .ready => judge s
  | .resetPending => s.performReset s.pinsAsTaken
  | .cut => { s with port := { s.port with phase := .ready } }

end Sys2Proof.Machine
end

