-- ==== Sys2Proof/Machine/Serve.lean ====
section
/-! DEFINITION. How a host command is taken at the end of its transaction (11 R200, R203): the pending reset, supervision, the
length check, BUSY, and then the command's own rule. -/

namespace Sys2Proof.Machine

/-- The outcome of a command of the part. -/
abbrev Result := Host.Outcome State Fault Refusal

/-- A commit is in flight (02 R37). -/
def State.committing (s : State) : Bool :=
  match s.store.staging with
  | .committing _ => true
  | .closed | .opened _ => false

/-- A good frame (11 R199): it restarts supervision (10 R192) and goes on to dispatch, where its transaction is judged at all. -/
def goodFrame (s : State) (dispatch : State → State) : Result :=
  .next (s.endTransaction (fun s => dispatch s.restartSupervision))

/-- The response of a command's rule enters the buffer. -/
def respond (code : Nat) (r : State × Reply) : State := r.1.answer (byte code) r.2

/-- Dispatch (11 R200): a payload that its fields do not call for is answered BAD_FIELD, and otherwise the command acts by its
rule. -/
def dispatch {α : Type} (code : Nat) (reader : Payload → Option α) (act : α → State → State × Reply) (p : Payload)
    (s : State) : State :=
  match reader p with
  | none => respond code (s, refuse .badField)
  | some a => respond code (act a s)

/-- A host command (11 R200). -/
def serve {α : Type} (code : Nat) (reader : Payload → Option α) (act : α → State → State × Reply) (p : Payload) (s : State) :
    Result :=
  goodFrame s (dispatch code reader act p)

/-- A command that is answered BUSY while a commit is in flight, before its own fields are range-checked (11 R200, 02 R37). -/
def busyWhileCommitting {α : Type} (act : α → State → State × Reply) (a : α) (s : State) : State × Reply :=
  if s.committing then (s, refuse .busy) else act a s

end Sys2Proof.Machine
end

