-- ==== Sys2Proof/Machine/AttentionUnit.lean ====
section
/-! DEFINITION. The commands of the Attention Unit and the expiry of host supervision (10). -/

namespace Sys2Proof.Machine

/-! ## Levels and mask (10 R186, R188) -/

def setAttentionLevel (x : Nat × Nat) (s : State) : State × Reply :=
  match NoticeKind.ofPlace x.1 with
  | none => (s, refuse .badField)
  | some k =>
    if 7 < x.2 ∨ k = .supervision then (s, refuse .badField)
    else ({ s with att := ({ s.att with levels := s.att.levels.set k x.2 }).judge }, ok [])

/-- SET_ATTENTION_LEVEL, command 58 (10 R186). -/
def execSetAttentionLevel (p : Payload) (s : State) : Result := serve 58 readTwo setAttentionLevel p s

def setMaskLevel (n : Nat) (s : State) : State × Reply :=
  if 7 < n then (s, refuse .badField) else ({ s with att := ({ s.att with mask := n }).judge }, ok [])

/-- SET_MASK_LEVEL, command 59 (10 R188). -/
def execSetMaskLevel (p : Payload) (s : State) : Result := serve 59 readByte setMaskLevel p s

/-! ## Fetching (10 R189, R190) -/

/-- The level of a notice at this moment (10 R185). -/
def Attention.levelOf (a : Attention) (n : Notice) : Nat := a.levels.get n.detail.kind

/-- The pending notices in the order in which they are fetched: highest level first, and among equal levels by kind and then scope
(10 R189). -/
def Attention.fetchOrder (a : Attention) : List Notice :=
  [7, 6, 5, 4, 3, 2, 1, 0].flatMap (fun l => a.notices.filter (fun n => decide (a.levelOf n = l)))

/-- The pending set without a notice, the line judged afresh. -/
def Attention.remove (a : Attention) (n : Notice) : Attention :=
  ({ a with notices := a.notices.filter (fun m => decide (m.key ≠ n.key)) }).judge

/-- The byte of the kind NONE (log 19). -/
def kindNone : Nat := 13

/-- What FETCH_ATTENTION hands over (10 R189). -/
def Attention.fetchBytes (a : Attention) (n : Notice) (left : Nat) : List Byte :=
  be1 n.detail.kind.place ++ scopeByte n.scope ++ be1 (a.levelOf n) ++ detailBytes n.detail ++ be1 n.repeats ++ be1 left

def fetchAttention (_ : Unit) (s : State) : State × Reply :=
  match s.att.fetchOrder with
  | [] => (s, ok (be1 kindNone ++ be1 0))
  | n :: _ =>
    let a := s.att.remove n
    ({ s with att := a }, ok (s.att.fetchBytes n a.notices.length))

/-- FETCH_ATTENTION, command 60 (10 R189). -/
def execFetchAttention (p : Payload) (s : State) : Result := serve 60 readNothing fetchAttention p s

/-- A pending notice as READ_ATTENTION lists it. -/
def Attention.noticeLine (a : Attention) (n : Notice) : List Byte :=
  be1 n.detail.kind.place ++ scopeByte n.scope ++ be1 (a.levelOf n) ++ be1 n.repeats

/-- What READ_ATTENTION returns; the levels have no count byte, and the number of pending notices is the count byte of their list; the
presence byte of the milliseconds that remain says whether the supervision timer runs (10 R190, log 14). -/
def attentionBytes (a : Attention) (latch : Bool) : List Byte :=
  be1 a.mask ++ NoticeKind.all.flatMap (fun k => be1 (a.levels.get k)) ++ firstOf a.line
    ++ listOf a.noticeLine a.fetchOrder
    ++ be1 a.period ++ be1 a.action.place ++ opt be2 a.timer ++ be1 a.expiries ++ firstOf latch

def readAttention (_ : Unit) (s : State) : State × Reply := (s, ok (attentionBytes s.att s.latch))

/-- READ_ATTENTION, command 61 (10 R190). -/
def execReadAttention (p : Payload) (s : State) : Result := serve 61 readNothing readAttention p s

/-! ## Host supervision (10 R191 to R194) -/

def setSupervision (x : Nat × Nat) (s : State) : State × Reply :=
  match SupervisionAction.ofPlace x.2 with
  | none => (s, refuse .badField)
  | some action =>
    if 60 < x.1 then (s, refuse .badField)
    else if s.att.action = .fallback ∧ (action = .alert ∨ x.1 = 0) then (s, refuse .wrongState)
    else ({ s with att := { s.att with
      period := x.1
      action := action
      timer := supervisionTimer x.1
      expiries := 0 } }, ok [])

/-- SET_SUPERVISION, command 62 (10 R191). -/
def execSetSupervision (p : Payload) (s : State) : Result := serve 62 readTwo setSupervision p s

/-- The fallback latch is set and every feeder derived; a latch already set stays and is not handed on again (10 R193, R194). -/
def State.setLatch (s : State) : State := if s.latch then s else ({ s with latch := true }).deriveMany Ix4.all

/-- The expiry of the supervision timer (10 R193): the count, the timer, the latch at the second expiry under FALLBACK, and then the
notice. -/
def State.supervisionExpires (s : State) : State :=
  let n := min 255 (s.att.expiries + 1)
  let s := { s with att := { s.att with expiries := n, timer := supervisionTimer s.att.period } }
  let s := if s.att.action = .fallback ∧ n = 2 then s.setLatch else s
  s.give .part (.supervision n s.latch)

/-- SUPERVISION_EXPIRY (10 R193): it comes when the supervision timer has run down (log 3), so that a good frame taken first
forestalls it (R192). -/
def execSupervisionExpiry (s : State) : Result := .next (if s.att.timer = some 0 then s.supervisionExpires else s)

end Sys2Proof.Machine
end

