-- ==== Sys2Proof/Machine/Breaker.lean ====
section
/-! DEFINITION. The Feeder Sequencer: position changes, timer expiries, and the host's commands on the breaker (03). -/

namespace Sys2Proof.Machine

/-- The Sequencer gives a POSITION_ALARM (10 R185). -/
def State.alarm (s : State) (f : Feeder) (d : AlarmDetail) : State := s.give (.feeder f) (.positionAlarm d)

/-! ## Position changes (03 R46, R51, R52, R56, R58, R66) -/

/-- A change to OPEN that no hunt request asked for: the hunt ends ABANDONED(POSITION), a close in progress is given up, and the
feeder is locked out (03 R66, 08 R159, log 24). -/
def State.unaskedOpen (s : State) (f : Feeder) : State :=
  let s := s.closeHunt f (.abandoned .position) (some (.breaker .unaskedOpen))
  ((s.modSeq f Seq.releaseClose).lockout f .externalOpen none).alarm f .unaskedOpen

/-- The same for a change to CLOSED. -/
def State.unaskedClose (s : State) (f : Feeder) : State :=
  let s := s.closeHunt f (.abandoned .position) (some (.breaker .unaskedClose))
  (s.modSeq f Seq.restClosed).alarm f .unaskedClose

/-- The breaker of a feeder in HUNT seen OPEN (03 R66): OPENING asked for it. In TEST_CLOSED, and in IDLE from CLOSED, no request did;
TEST_CLOSING, RESTORE_CLOSING and IDLE from another position are taken in the same way (log 24). -/
def State.huntSeenOpen (s : State) (f : Feeder) (service : HuntService) : State :=
  match service with
  | .opening => (s.modSeq f (fun r => { r.releaseTrip with state := .hunt .idle, huntTest := false })).openReport f
  | .idle | .testClosing | .testClosed | .restoreClosing => s.unaskedOpen f

/-- The breaker of a feeder in HUNT seen CLOSED (03 R65, R66): TEST_CLOSING and RESTORE_CLOSING asked for it; with the service
OPENING it ends nothing, and in IDLE and TEST_CLOSED no close drive is asserted. -/
def State.huntSeenClosed (s : State) (f : Feeder) (service : HuntService) : State :=
  match service with
  | .testClosing => (s.modSeq f (fun r => { r.releaseClose with state := .hunt .testClosed })).closedReport f
  | .restoreClosing => (s.modSeq f (fun r => { r.releaseClose with state := .hunt .idle })).closedReport f
  | .opening => s
  | .idle | .testClosed => s.unaskedClose f

/-- The breaker seen OPEN (03 R51, R52, R58, R66). -/
def State.seenOpen (s : State) (f : Feeder) : State :=
  match (s.seq.get f).state with
  | .tripping origin mark => s.endTrip f origin mark
  | .breakerFail _ => (s.modSeq f Seq.releaseTrip).lockout f .protection none
  | .closed => (s.lockout f .externalOpen none).alarm f .externalOpen
  | .reclaim => (s.lockout f .externalOpen none).alarm f .externalOpen
  | .deadTime | .closing _ | .lockout _ => s
  | .hunt service => s.huntSeenOpen f service

/-- The end of a close (03 R56). -/
def State.closeMade (s : State) (f : Feeder) (kind : CloseKind) : State :=
  match kind with
  | .reclose =>
    let time := (s.activeGroup f).reclaimTime
    s.modSeq f (fun r => { r.releaseClose with state := .reclaim, reclaim := some time })
  | .host =>
    let time := s.windowTime f
    s.modSeq f (fun r => { r.releaseClose with state := .closed, shots := 0, window := some time })

/-- The breaker seen CLOSED (03 R56, R58, R66). -/
def State.seenClosed (s : State) (f : Feeder) : State :=
  match (s.seq.get f).state with
  | .closing kind => s.closeMade f kind
  | .deadTime => (s.modSeq f (fun r => { r.restClosed with dead := none })).alarm f .externalClose
  | .lockout _ => (s.modSeq f (fun r => { r.restClosed with dead := none })).alarm f .externalClose
  | .tripping _ _ | .breakerFail _ | .closed | .reclaim => s
  | .hunt service => s.huntSeenClosed f service

/-- A change of the decoded position (03 R46). -/
def State.positionChange (s : State) (f : Feeder) (new : Position) : State :=
  let s := s.modSeq f (fun r => { r with position := new })
  match new with
  | .opened => s.seenOpen f
  | .closed => s.seenClosed f
  | .travel => s
  | .invalid => s.alarm f .invalid

/-- DECODED_POSITION_CHANGE (03 R46): contacts that decode to the position held make no change of it. -/
def execDecodedPositionChange (f : Feeder) (c : Contacts) (s : State) : Result :=
  let s := { s with contacts := s.contacts.set f c }
  .next (if c.decode = (s.seq.get f).position then s else s.positionChange f c.decode)

/-! ## Timer expiries: each comes when its timer has run down (log 3) -/

/-- The expiry of the trip-fail timer (03 R50, R66). -/
def State.tripFails (s : State) (f : Feeder) : State :=
  match (s.seq.get f).state with
  | .tripping origin _ => s.breakerFails f origin
  | .hunt .opening =>
    (s.closeHunt f (.abandoned .position) (some (.breaker .breakerFail))).breakerFails f .protection
  | .hunt .idle | .hunt .testClosing | .hunt .testClosed | .hunt .restoreClosing | .closed | .deadTime | .closing _
  | .reclaim | .lockout _ | .breakerFail _ => s

/-- TRIP_FAIL_EXPIRY (03 R50). -/
def execTripFailExpiry (f : Feeder) (s : State) : Result :=
  .next (if (s.seq.get f).tripFail = some 0 then s.tripFails f else s)

/-- A close that was not made: LOCKOUT with cause CLOSE_FAIL and its alarm (03 R56, R65). -/
def State.closeLost (s : State) (f : Feeder) : State :=
  ((s.modSeq f Seq.releaseClose).lockout f .closeFail none).alarm f .closeFail

/-- The expiry of the close-fail timer (03 R56, R65). -/
def State.closeFails (s : State) (f : Feeder) : State :=
  match (s.seq.get f).state with
  | .closing _ => s.closeLost f
  | .hunt .testClosing | .hunt .restoreClosing =>
    (s.closeHunt f (.abandoned .position) (some (.breaker .closeFail))).closeLost f
  | .hunt .idle | .hunt .opening | .hunt .testClosed | .closed | .tripping _ _ | .deadTime | .reclaim | .lockout _
  | .breakerFail _ => s

/-- CLOSE_FAIL_EXPIRY (03 R56). -/
def execCloseFailExpiry (f : Feeder) (s : State) : Result :=
  .next (if (s.seq.get f).closeFail = some 0 then s.closeFails f else s)

/-- The expiry of the dead timer (03 R54): the block and the shot count are judged before the position. -/
def State.deadEnds (s : State) (f : Feeder) : State :=
  let r := s.seq.get f
  if (s.causes f).any Cause.blocksReclose ∨ (s.activeGroup f).shotCount ≤ r.shots then s.lockout f .blocked none
  else if r.position = .opened then
    let time := s.closeFailTime f
    s.modSeq f (fun r => { r.assertClose time with
      state := .closing .reclose, shots := r.shots + 1, dead := none, tripElement := none })
  else (s.lockout f .closeFail none).alarm f .positionUnknown

/-- DEAD_TIMER_EXPIRY (03 R54). -/
def execDeadTimerExpiry (f : Feeder) (s : State) : Result :=
  let r := s.seq.get f
  .next (if r.dead = some 0 ∧ r.state = .deadTime then s.deadEnds f else s)

/-- RECLAIM_TIMER_EXPIRY (03 R57). -/
def execReclaimTimerExpiry (f : Feeder) (s : State) : Result :=
  let r := s.seq.get f
  .next (if r.reclaim = some 0 ∧ r.state = .reclaim then
    s.modSeq f (fun r => { r with state := .closed, shots := 0, reclaim := none })
  else s)

/-- CLOSE_ONTO_FAULT_WINDOW_EXPIRY (03 R59). -/
def execCloseOntoFaultWindowExpiry (f : Feeder) (s : State) : Result :=
  .next (if (s.seq.get f).window = some 0 then s.modSeq f (fun r => { r with window := none }) else s)

/-! ## Host commands (03 R51, R60 to R63) -/

def closeBreaker (n : Nat) (s : State) : State × Reply :=
  onFeeder n s (fun f =>
    let r := s.seq.get f
    if r.state.lockedOut = false then (s, refuse .wrongState)
    else if (s.causes f).any Cause.blocksHostClose then (s, refuse .blocked)
    else if r.position ≠ .opened then (s, refuse .wrongState)
    else
      let time := s.closeFailTime f
      (s.modSeq f (fun r => { r.assertClose time with state := .closing .host, shots := 0, tripElement := none }), ok []))

/-- CLOSE_BREAKER, command 14 (03 R60). -/
def execCloseBreaker (p : Payload) (s : State) : Result := serve 14 readByte closeBreaker p s

/-- OPEN_BREAKER on a feeder in HUNT, its hunt already ended ABANDONED(HOST) (03 R61). The feeder does not pass through the table of
R64 first, so that no LOCKOUT of HUNT_END is entered or told on the way (log 23). -/
def State.openFromHunt (s : State) (f : Feeder) : State :=
  let r := s.seq.get f
  if r.tripDrive then
    s.modSeq f (fun r => { r with state := .tripping .hostOpen false, tripElement := none, huntTest := false })
  else if r.position = .opened then (s.modSeq f Seq.releaseClose).lockout f .hostOpen none
  else s.beginTrip f .hostOpen false none

/-- The effect of OPEN_BREAKER by the state (03 R61). -/
def State.hostOpen (s : State) (f : Feeder) : State :=
  let r := s.seq.get f
  match r.state with
  | .closed | .reclaim | .closing _ => s.beginTrip f .hostOpen false none
  | .tripping _ mark => s.modSeq f (fun r => { r with state := .tripping .hostOpen mark })
  | .deadTime => s.lockout f .hostOpen none
  | .lockout _ =>
    if r.position = .opened then s.modSeq f (fun r => { r with state := .lockout .hostOpen })
    else s.beginTrip f .hostOpen false none
  | .hunt _ => (s.closeHunt f (.abandoned .host) none).openFromHunt f
  | .breakerFail _ => s

def openBreaker (n : Nat) (s : State) : State × Reply :=
  onFeeder n s (fun f => if (s.seq.get f).state.failed then (s, refuse .wrongState) else (s.hostOpen f, ok []))

/-- OPEN_BREAKER, command 15 (03 R61). -/
def execOpenBreaker (p : Payload) (s : State) : Result := serve 15 readByte openBreaker p s

/-- The end of BREAKER_FAIL at the host's word (03 R51). -/
def State.clearFail (s : State) (f : Feeder) : State :=
  let s := s.modSeq f Seq.releaseTrip
  if (s.seq.get f).position = .closed then s.modSeq f Seq.restClosed else s.lockout f .protection none

def clearBreakerFail (n : Nat) (s : State) : State × Reply :=
  onFeeder n s (fun f => if (s.seq.get f).state.failed then (s.clearFail f, ok []) else (s, refuse .wrongState))

/-- CLEAR_BREAKER_FAIL, command 16 (03 R51). -/
def execClearBreakerFail (p : Payload) (s : State) : Result := serve 16 readByte clearBreakerFail p s

def setHostBlock (n : Nat × Nat) (s : State) : State × Reply :=
  match Ix4.ofNum n.1, onOff n.2 with
  | some f, some b =>
    let i := s.inputs.get f
    if i.hostBlock = b then (s, ok []) else ((s.putInputs f { i with hostBlock := b }).derive f, ok [])
  | _, _ => (s, refuse .badField)

/-- SET_HOST_BLOCK, command 17 (03 R62). -/
def execSetHostBlock (p : Payload) (s : State) : Result := serve 17 readTwo setHostBlock p s

/-- The lockout cause, where the state has one. -/
def SeqState.cause : SeqState → Option LockoutCause
  | .lockout c => some c
  | .closed | .tripping _ _ | .deadTime | .closing _ | .reclaim | .breakerFail _ | .hunt _ => none

/-- The trip origin, where the state has one. -/
def SeqState.origin : SeqState → Option TripOrigin
  | .tripping o _ => some o
  | .breakerFail o => some o
  | .closed | .deadTime | .closing _ | .reclaim | .lockout _ | .hunt _ => none

/-- The onto-fault mark, where the state has one. -/
def SeqState.mark : SeqState → Option Bool
  | .tripping _ m => some m
  | .closed | .deadTime | .closing _ | .reclaim | .lockout _ | .breakerFail _ | .hunt _ => none

/-- The close kind, where the state has one. -/
def SeqState.kind : SeqState → Option CloseKind
  | .closing k => some k
  | .closed | .tripping _ _ | .deadTime | .reclaim | .lockout _ | .breakerFail _ | .hunt _ => none

/-- The hunt service, where the state has one. -/
def SeqState.service : SeqState → Option HuntService
  | .hunt x => some x
  | .closed | .tripping _ _ | .deadTime | .closing _ | .reclaim | .lockout _ | .breakerFail _ => none

/-- The sequencer record, the backup line and the fault snapshot; the presence byte of the milliseconds that remain of a timer says
whether it runs (03 R63, log 14). -/
def feederBytes (r : Seq) (backup : Bool) (x : Option Snapshot) : List Byte :=
  be1 r.state.place ++ opt (fun c => be1 (LockoutCause.place c)) r.state.cause ++ be1 r.shots
    ++ opt (fun o => be1 (TripOrigin.place o)) r.state.origin ++ opt (fun e => be1 (Element.place e)) r.tripElement
    ++ opt firstOf r.state.mark ++ opt (fun k => be1 (CloseKind.place k)) r.state.kind
    ++ opt (fun x => be1 (HuntService.place x)) r.state.service
    ++ firstOf r.tripDrive ++ firstOf r.closeDrive ++ be1 r.position.place
    ++ opt be2 r.tripFail ++ opt be2 r.closeFail ++ opt be4 r.dead ++ opt be4 r.reclaim ++ opt be2 r.window
    ++ yes r.ontoFault ++ yes r.huntTest ++ yes backup ++ opt snapshotBytes x

def readFeeder (n : Nat) (s : State) : State × Reply :=
  onFeeder n s (fun f => (s, ok (feederBytes (s.seq.get f) s.backup (s.engine.get f).snapshot)))

/-- READ_FEEDER, command 18 (03 R63). -/
def execReadFeeder (p : Payload) (s : State) : Result := serve 18 readByte readFeeder p s

end Sys2Proof.Machine
end

