-- ==== Sys2Proof/Config.lean ====
section
/-! DEFINITION. What an implementation of the FR4 fixes and the manual does not give. -/

namespace Sys2Proof

/-- The 16-bit words that enter the sum of a stored record's check word. FREE VALUE (log 7): 02 R30 says that which bytes enter
the sum, and in what arrangement, is internal to the store, so the constant has no body and every statement holds whatever
it is. -/
opaque Config.storeWords : Machine.Content → List Word16

end Sys2Proof
end

