-- ==== Sys2Proof/Machine/Staging.lean ====
section
/-! DEFINITION. The fields of the stored records with their ranges (02 R27 to R29), the working copy of a staging (R33, R34), the
commit check (R36), and the check word (R30). -/

namespace Sys2Proof.Machine

/-! ## Fields -/

/-- A field of a working copy: the byte that names it and its index (02 R34), the values it takes, how it is read and written, and
the bytes that its range calls for (11 R207). -/
structure Field (α : Type) where
  row : Nat
  index : Nat
  accepts : Nat → Bool
  get : α → Option Nat
  set : Nat → α → α
  width : Nat

/-- A number within bounds. -/
def within (low high n : Nat) : Bool := decide (low ≤ n ∧ n ≤ high)

/-- A number within bounds in steps of 10 (02 R27). -/
def stepped (low high n : Nat) : Bool := within low high n && decide (n % 10 = 0)

/-- A number in one, two or four bytes. -/
def beOf (width n : Nat) : List Byte :=
  if width = 1 then be1 n else if width = 2 then be2 n else be4 n

/-- The value of a field of a copy is set and within its range (02 R36). -/
def Field.good {α : Type} (x : Field α) (a : α) : Bool :=
  match x.get a with
  | some n => x.accepts n
  | none => false

/-- The value of a field without a presence byte; 0 where it is unset, which a stored record never is. -/
def Field.bytes {α : Type} (x : Field α) (a : α) : List Byte := beOf x.width ((x.get a).getD 0)

/-- The value of a field after its presence byte (02 R35). -/
def Field.optBytes {α : Type} (x : Field α) (a : α) : List Byte := opt (beOf x.width) (x.get a)

/-- A field of the settings of an element. -/
def elementField (row : Nat) (e : Element) (accepts : Nat → Bool) (get : ElementSettings → Nat)
    (set : Nat → ElementSettings → ElementSettings) (width : Nat) : Field Group where
  row := row
  index := e.place
  accepts := accepts
  get := fun g => some (get (g.elements.get e))
  set := fun n g => { g with elements := g.elements.set e (set n (g.elements.get e)) }
  width := width

/-- A field that a group holds once. -/
def groupField (row : Nat) (accepts : Nat → Bool) (get : Group → Nat) (set : Nat → Group → Group) (width : Nat) :
    Field Group where
  row := row
  index := 0
  accepts := accepts
  get := fun g => some (get g)
  set := set
  width := width

/-- The place of a two-way setting: on or off, set or clear (log 12). -/
def placeOf (b : Bool) : Nat := if b then 0 else 1

/-- The range of the pickup of an element (02 R27). -/
def pickupRange : Element → Nat → Bool
  | .p1 | .p2 => within 10 4000
  | .e1 | .e2 => within 5 5000
  | .s1 => within 5 250

/-- The bytes of a pickup: that of S1 fits one. -/
def pickupWidth : Element → Nat
  | .p1 | .p2 | .e1 | .e2 => 2
  | .s1 => 1

/-- The fields of a group in the order of the table of 02 R27. A range holds of the whole four-byte value of R34, so that a choice
or a set with a bit above its one byte is out of range (log 41). -/
def groupFields : List (Field Group) :=
  Element.all.map (fun e => elementField 0 e (within 0 1) (fun x => placeOf x.enabled)
    (fun n x => { x with enabled := decide (n = 0) }) 1)
  ++ Element.all.map (fun e => elementField 1 e (pickupRange e) (·.pickup) (fun n x => { x with pickup := n }) (pickupWidth e))
  ++ Element.all.map (fun e => elementField 2 e (within 1 31) (fun x => x.shots.toNat)
    (fun n x => { x with shots := BitVec.ofNat 5 n }) 1)
  ++ Element.all.map (fun e => elementField 3 e (within 0 1) (fun x => placeOf x.workFast)
    (fun n x => { x with workFast := decide (n = 0) }) 1)
  ++ [.p1, .e1].map (fun e => elementField 4 e (within 0 3) (fun x => x.curve.place)
    (fun n x => { x with curve := (Ix4.ofPlace n).getD x.curve }) 1)
  ++ [.p1, .e1].map (fun e => elementField 5 e (within 5 150) (·.tm) (fun n x => { x with tm := n }) 1)
  ++ [.p1, .e1].map (fun e => elementField 6 e (within 0 60000) (·.resetTime) (fun n x => { x with resetTime := n }) 2)
  ++ [.p2, .e2, .s1].map (fun e => elementField 7 e (stepped 0 60000) (·.delay) (fun n x => { x with delay := n }) 2)
  ++ [{ elementField 8 .s1 (within 10 500) (·.vsup) (fun n x => { x with vsup := n }) 2 with index := 0 }]
  ++ [groupField 9 (within 0 4) (·.shotCount) (fun n g => { g with shotCount := n }) 1]
  ++ Ix4.all.map (fun i => { groupField 10 (stepped 300 180000) (fun g => g.deadTimes.get i)
    (fun n g => { g with deadTimes := g.deadTimes.set i n }) 4 with index := i.num })
  ++ [groupField 11 (within 5000 300000) (·.reclaimTime) (fun n g => { g with reclaimTime := n }) 4,
    groupField 12 (within 0 6) (·.recloseCeiling) (fun n g => { g with recloseCeiling := n }) 1,
    groupField 13 (within 0 1) (fun g => placeOf g.huntEnabled) (fun n g => { g with huntEnabled := decide (n = 0) }) 1,
    groupField 14 (within 0 6) (·.huntCeiling) (fun n g => { g with huntCeiling := n }) 1,
    groupField 15 (within 1 6) (·.testBudget) (fun n g => { g with testBudget := n }) 1,
    groupField 16 (within 1000 10000) (·.testHoldTime) (fun n g => { g with testHoldTime := n }) 2]

/-- The breakpoint count of a curve copy (02 R28). -/
def countField : Field CurveDraft where
  row := 0
  index := 0
  accepts := within 2 16
  get := (·.count)
  set := fun n c => { c with count := some n }
  width := 1

/-- The multiple of a breakpoint, numbered from 1 (02 R28). -/
def qField (k : Nat) : Field CurveDraft where
  row := 1
  index := k
  accepts := within 64 2560
  get := fun c => (c.qs[k - 1]?).join
  set := fun n c => { c with qs := c.qs.set (k - 1) (some n) }
  width := 2

/-- The time of a breakpoint, numbered from 1 (02 R28). -/
def tField (k : Nat) : Field CurveDraft where
  row := 2
  index := k
  accepts := within 10 600000
  get := fun c => (c.ts[k - 1]?).join
  set := fun n c => { c with ts := c.ts.set (k - 1) (some n) }
  width := 4

/-- The fields of a curve copy up to a number of breakpoints: the count, then every multiple, then every time (02 R28, R36,
log 40). -/
def curveFieldsTo (n : Nat) : List (Field CurveDraft) :=
  countField :: ((List.range n).map (fun k => qField (k + 1)) ++ (List.range n).map (fun k => tField (k + 1)))

/-- A number field of a constants copy. -/
def constantField (row : Nat) (accepts : Nat → Bool) (get : ConstantsDraft → Option Nat)
    (set : Nat → ConstantsDraft → ConstantsDraft) (width : Nat) : Field ConstantsDraft := ⟨row, 0, accepts, get, set, width⟩

/-- The fields of a constants copy in the order of the table of 02 R29. -/
def constantFields : List (Field ConstantsDraft) :=
  [constantField 0 (within 100 3000) (·.x1) (fun n k => { k with x1 := some n }) 2,
    constantField 1 (within 0 5000) (·.minUncertainty) (fun n k => { k with minUncertainty := some n }) 2,
    constantField 2 (within 0 30) (·.uncertaintyPercent) (fun n k => { k with uncertaintyPercent := some n }) 1,
    constantField 3 (within 10 5000) (·.locateThreshold) (fun n k => { k with locateThreshold := some n }) 2,
    constantField 4 (within 60 500) (·.tripFailTime) (fun n k => { k with tripFailTime := some n }) 2,
    constantField 5 (within 100 2000) (·.closeFailTime) (fun n k => { k with closeFailTime := some n }) 2,
    constantField 6 (within 100 2000) (·.windowTime) (fun n k => { k with windowTime := some n }) 2,
    constantField 7 (within 0 1) (fun k => k.district.map District.place)
      (fun n k => { k with district := some (if n = 0 then .a else .b) }) 1]
  ++ (List.range 6).map (fun i => { constantField 8 (within 1 4) (fun k => ((k.levelMap[i]?).join).map Ix4.num)
    (fun n k => { k with levelMap := k.levelMap.set i (Ix4.ofNum n) }) 1 with index := i })

/-- The field that a byte and an index name. -/
def findField {α : Type} (fs : List (Field α)) (row index : Nat) : Option (Field α) :=
  fs.find? (fun x => decide (x.row = row ∧ x.index = index))

/-- Writes a field of a copy: none when the field does not belong, or the index or the value is out of range (02 R34). -/
def writeField {α : Type} (fs : List (Field α)) (w : StagedFields) (a : α) : Option α :=
  match findField fs w.field w.index with
  | some x => if x.accepts w.value then some (x.set w.value a) else none
  | none => none

/-- Writes a field of a working copy (02 R34). -/
def Draft.write (w : StagedFields) : Draft → Option Draft
  | .group f g c => (writeField groupFields w c).map (.group f g)
  | .curve n c => (writeField (curveFieldsTo 16) w c).map (.curve n)
  | .feeder f c => (writeField constantFields w c).map (.feeder f)

/-- The target of a staging. -/
def Draft.target : Draft → Target
  | .group f g _ => .group f g
  | .curve n _ => .curve n
  | .feeder f _ => .feeder f

/-- Every field of a working copy, unset ones marked (02 R35); a working copy has a fixed number of fields, and no count byte stands
before any of them (log 14). -/
def Draft.bytes : Draft → List Byte
  | .group _ _ c => groupFields.flatMap (fun x => x.optBytes c)
  | .curve _ c => (curveFieldsTo 16).flatMap (fun x => x.optBytes c)
  | .feeder _ c => constantFields.flatMap (fun x => x.optBytes c)

/-! ## The commit check (02 R36) -/

/-- A failing field and its index. -/
abbrev Failing := Nat × Nat

/-- The first field of a list that is not set or not within its range. -/
def firstBad {α : Type} (fs : List (Field α)) (a : α) : Option Failing :=
  (fs.find? (fun x => !x.good a)).map (fun x => (x.row, x.index))

/-- An enabled element names a curve table that is VALID. -/
def Store.namesValid (t : Store) (x : ElementSettings) : Bool :=
  !x.enabled || (t.curves.get x.curve).validContent.isSome

/-- The cross-field rules of a group. -/
def Store.groupCross (t : Store) (g : Group) : Option Failing :=
  if t.namesValid g.elements.p1 = false then some (4, Element.p1.place)
  else if t.namesValid g.elements.e1 = false then some (4, Element.e1.place)
  else none

/-- The number of the first value of a list, from the second on, that does not stand to the one before it as it should. -/
def firstBreak (holds : Nat → Nat → Bool) : Nat → List Nat → Option Nat
  | k, a :: b :: rest => if holds a b then firstBreak holds (k + 1) (b :: rest) else some (k + 1)
  | _, _ => none

/-- The breakpoints of a curve copy up to its count. -/
def CurveDraft.qsTo (c : CurveDraft) : List Nat := (c.qs.take (c.count.getD 0)).map (·.getD 0)
def CurveDraft.tsTo (c : CurveDraft) : List Nat := (c.ts.take (c.count.getD 0)).map (·.getD 0)

/-- The cross-field rules of a curve table. -/
def CurveDraft.cross (c : CurveDraft) : Option Failing :=
  if c.qsTo.head? ≠ some 64 then some (1, 1)
  else
    match firstBreak (fun a b => decide (a < b)) 1 c.qsTo with
    | some k => some (1, k)
    | none => (firstBreak (fun a b => decide (b ≤ a)) 1 c.tsTo).map (fun k => (2, k))

/-- The commit check: the first failing field and its index, if any (02 R36). -/
def Store.commitCheck (t : Store) : Draft → Option Failing
  | .group _ _ c => (firstBad groupFields c).or (t.groupCross c)
  | .curve _ c => (firstBad (curveFieldsTo (c.count.getD 0)) c).or c.cross
  | .feeder _ c => firstBad constantFields c

/-! ## Contents -/

/-- The level map of a copy. -/
def levelMapOf : List (Option GroupNo) → LevelMap
  | [a, b, c, d, e, f] => ⟨a.getD .n1, b.getD .n1, c.getD .n1, d.getD .n1, e.getD .n1, f.getD .n1⟩
  | _ => ⟨.n1, .n1, .n1, .n1, .n1, .n1⟩

/-- The constants of a copy whose fields are all set. -/
def ConstantsDraft.constants (k : ConstantsDraft) : Constants where
  x1 := k.x1.getD 0
  minUncertainty := k.minUncertainty.getD 0
  uncertaintyPercent := k.uncertaintyPercent.getD 0
  locateThreshold := k.locateThreshold.getD 0
  tripFailTime := k.tripFailTime.getD 0
  closeFailTime := k.closeFailTime.getD 0
  windowTime := k.windowTime.getD 0
  district := k.district.getD .a
  levelMap := levelMapOf k.levelMap

/-- The curve of a copy: its breakpoints up to the count (02 R28). -/
def CurveDraft.curve (c : CurveDraft) : Curve := ⟨(c.qsTo.zip c.tsTo).map (fun p => ⟨p.1, p.2⟩)⟩

/-- The copy of a VALID constants record (02 R33). -/
def Constants.draft (k : Constants) : ConstantsDraft where
  x1 := some k.x1
  minUncertainty := some k.minUncertainty
  uncertaintyPercent := some k.uncertaintyPercent
  locateThreshold := some k.locateThreshold
  tripFailTime := some k.tripFailTime
  closeFailTime := some k.closeFailTime
  windowTime := some k.windowTime
  district := some k.district
  levelMap := (List.range 6).map (fun i => some (k.levelMap.get i))

/-- A list of sixteen with the rest unset. -/
def padTo16 (ns : List Nat) : List (Option Nat) := (List.range 16).map (fun i => ns[i]?)

/-- The copy of a VALID curve table (02 R33): the breakpoints beyond the count are unset (R28). -/
def Curve.draft (c : Curve) : CurveDraft :=
  ⟨some c.breakpoints.length, padTo16 (c.breakpoints.map (·.q)), padTo16 (c.breakpoints.map (·.t))⟩

/-- The content that a commit writes (02 R38). -/
def Draft.content : Draft → Content
  | .group _ _ c => .group c
  | .curve _ c => .curve c.curve
  | .feeder _ c => .constants c.constants

/-- The working copy that an opening fills (02 R33). -/
def Store.draftOf (t : Store) : Target → Draft
  | .group f g => .group f g (((t.groups.get f).get g).validContent.getD safeGroup)
  | .curve n => .curve n (((t.curves.get n).validContent.map Curve.draft).getD unsetCurveDraft)
  | .feeder f => .feeder f (((t.constants.get f).validContent.map Constants.draft).getD safeConstantsDraft)

/-! ## The check word and the stored records (02 R30, R40) -/

/-- The check word of a content: the ones' complement of the 16-bit sum of the words that the store holds it in, carries discarded
(02 R30; the words are Config.storeWords, log 7). -/
def checkWord (c : Content) : Word16 := ~~~ (Config.storeWords c).foldl (· + ·) 0#16

/-- A content put into a record of its kind. -/
def Stored.map {α β : Type} (g : α → β) : Stored α → Stored β
  | .empty => .empty
  | .valid c w => .valid (g c) w
  | .faulty c w => .faulty (g c) w

/-- A record of the store, whatever its kind. -/
def Store.look (t : Store) : Target → Stored Content
  | .group f g => ((t.groups.get f).get g).map .group
  | .curve n => (t.curves.get n).map .curve
  | .feeder f => (t.constants.get f).map .constants

/-- Writes a record VALID or FAULTY with a content of its kind; a content of another kind writes nothing. -/
def Store.write (t : Store) (target : Target) (valid : Bool) (c : Content) (w : Word16) : Store :=
  match target, c with
  | .group f g, .group c =>
    { t with groups := t.groups.set f ((t.groups.get f).set g (if valid then .valid c w else .faulty c w)) }
  | .curve n, .curve c => { t with curves := t.curves.set n (if valid then .valid c w else .faulty c w) }
  | .feeder f, .constants c => { t with constants := t.constants.set f (if valid then .valid c w else .faulty c w) }
  | _, _ => t

/-- What storage gives back: the content found, when it is of the kind of the content held, and else the content held (log 8). -/
def givenBack (held : Content) (found : Option Content) : Content :=
  match held, found with
  | .group _, some (.group g) => .group g
  | .curve _, some (.curve c) => .curve c
  | .constants _, some (.constants k) => .constants k
  | _, _ => held

/-- The scope of a notice about a record: its feeder, or PART for a curve table (10 R185). -/
def Target.scope : Target → Scope
  | .group f _ => .feeder f
  | .curve _ => .part
  | .feeder f => .feeder f

/-- Permission Logic is told of a group or constants record, and derives its feeder; a curve sets off nothing (02 R38, R41). -/
def State.tellRecord (s : State) : Target → State
  | .group f _ => s.derive f
  | .curve _ => s
  | .feeder f => s.derive f

/-- The record of a position of the scrub pointer (02 R40). -/
def Target.ofPosition (n : Nat) : Option Target :=
  if n ≤ 16 then do
    let f ← Ix4.ofPlace ((n - 1) / 4)
    let g ← Ix4.ofPlace ((n - 1) % 4)
    return .group f g
  else if n ≤ 20 then (Ix4.ofPlace (n - 17)).map .curve
  else (Ix4.ofPlace (n - 21)).map .feeder

/-- The twenty-four positions in their rotation from the pointer (02 R40). -/
def Store.rotation (t : Store) : List Nat := (List.range 24).map (fun i => (t.scrub - 1 + i) % 24 + 1)

/-- The content of a VALID record at a position. -/
def Store.validAt (t : Store) (n : Nat) : Option (Target × Content × Word16) :=
  match Target.ofPosition n with
  | some x =>
    match t.look x with
    | .valid c w => some (x, c, w)
    | .empty | .faulty _ _ => none
  | none => none

/-- The scrubber at a second tick (02 R40, R41): the first VALID record from the pointer on is checked, and the pointer moves past
it. Until such a visit a record altered in storage gives its readers the content last written, and only its content can alter, never its
check word (log 8). -/
def State.scrub (s : State) (found : Option Content) : State :=
  match s.store.rotation.findSome? (fun n => (s.store.validAt n).map (fun x => (n, x))) with
  | none => s
  | some (n, x, c, w) =>
    let s := { s with store := { s.store with scrub := n % 24 + 1 } }
    let back := givenBack c found
    if checkWord back = w then s
    else
      let s := { s with store := s.store.write x false back w }
      (s.give x.scope (.recordFaulty x .scrub)).tellRecord x

/-- The completion of a commit (02 R38, R39). -/
def State.completeCommit (s : State) (d : Draft) (found : Option Content) : State :=
  let x := d.target
  let c := d.content
  let w := checkWord c
  if checkWord (givenBack c found) = w then
    let s := { s with store := { s.store.write x true c w with staging := .closed } }
    (s.give .part (.commitDone x true)).tellRecord x
  else
    let s := { s with store := { s.store.write x false c w with staging := .opened d } }
    ((s.give .part (.commitDone x false)).give x.scope (.recordFaulty x .readBack)).tellRecord x

end Sys2Proof.Machine
end

