-- ==== Sys2Proof/Machine/Tags.lean ====
section
/-! DEFINITION. The commands of the Tag Table (04). -/

namespace Sys2Proof.Machine

/-- Section numbers in range: each 1 to 16, none twice (04 R72, R74). -/
def sectionsInRange (ns : List Nat) : Bool := decide ns.Nodup && ns.all (fun n => decide (1 ≤ n ∧ n ≤ 16))

/-- A scope in range: 0 to 4 section numbers (04 R69, R72). -/
def scopeInRange (ns : List Nat) : Bool := decide (ns.length ≤ 4) && sectionsInRange ns

/-- An expiry, when present, is a real minute (04 R72). -/
def expiryInRange : Option Minute → Bool
  | some m => m.real
  | none => true

/-- A minute is later than the calendar's current minute, the calendar being SET (04 R72). -/
def State.afterNow (s : State) (m : Minute) : Bool :=
  match s.cal.clock with
  | some k => m.laterThan k.minute
  | none => false

/-- Every section of a list is held by a feeder (04 R72, 07 R133). -/
def State.sectionsHeld (s : State) (f : Feeder) (ns : List Nat) : Bool :=
  ns.all (fun n => ((s.sections.get f).find n).isSome)

/-- The record that PLACE_TAG builds when its fields are in range (04 R72 check 1, R73). -/
def PlaceTagFields.tag (x : PlaceTagFields) (placed : Option Stamp) : Option Tag :=
  match Ix4.ofNum x.feeder, TagKind.ofPlace x.kind, holderOf x.authority x.holder with
  | some f, some k, some h =>
    if 1 ≤ x.number ∧ scopeInRange x.scope ∧ expiryInRange x.expiry then
      some ⟨x.number, f, k, x.scope, h, placed, x.expiry, false, 0⟩
    else none
  | _, _, _ => none

/-- The checks 2 to 6 of PLACE_TAG, in order (04 R72). -/
def State.placeCheck (s : State) (t : Tag) : Option Status :=
  if tagCapacity ≤ s.tags.length then some .full
  else if (s.findTag t.number).isSome then some .duplicate
  else if (t.kind = .noClose ∧ t.expiry.isSome) ∨ (t.kind ≠ .huntExclude ∧ t.scope ≠ []) then some .badField
  else if s.sectionsHeld t.feeder t.scope = false then some .notFound
  else if (t.expiry.map s.afterNow).getD true = false then some .badField
  else none

def placeTag (x : PlaceTagFields) (s : State) : State × Reply :=
  match x.tag (s.cal.clock.map Clock.stamp) with
  | none => (s, refuse .badField)
  | some t =>
    match s.placeCheck t with
    | some st => (s, refuse st)
    | none =>
      let n := s.tags.length + 1
      (({ s with tags := s.tags ++ [t] }).derive t.feeder, ok (be1 n ++ be1 n))

/-- PLACE_TAG, command 19 (04 R72, R73). -/
def execPlaceTag (p : Payload) (s : State) : Result := serve 19 readPlaceTag placeTag p s

/-- The fields of AMEND_TAG in range, with at least one change carried (04 R74 check 1). The added sections are in range as those
of R72 check 1 are. A list of sections carried empty is a change carried (log 16). -/
def AmendTagFields.inRange (x : AmendTagFields) : Bool :=
  decide (1 ≤ x.number) && (x.expiry.isSome || x.sections.isSome) && expiryInRange x.expiry.join
    && sectionsInRange (x.sections.getD [])

/-- The scope with sections added, in the order given, after those it held (04 R75). -/
def addedScope (scope ns : List Nat) : List Nat := scope ++ ns.filter (fun n => !scope.contains n)

/-- The changes of an amend widen a tag (04 R75). -/
def State.widens (s : State) (t : Tag) (x : AmendTagFields) : Bool :=
  (match x.expiry with
    | some (some new) =>
      match t.expiry with
      | some old => new.laterThan old && s.afterNow new
      | none => false
    | some none => t.expiry.isSome
    | none => true)
  && (match x.sections with
    | some ns => decide (t.kind = .huntExclude ∧ t.scope ≠ [] ∧ (addedScope t.scope ns).length ≤ 4)
    | none => true)

/-- A tag as an amend leaves it (04 R75). -/
def AmendTagFields.apply (x : AmendTagFields) (t : Tag) : Tag :=
  { t with expiry := x.expiry.getD t.expiry, scope := addedScope t.scope (x.sections.getD []) }

def amendTag (x : AmendTagFields) (s : State) : State × Reply :=
  match holderOf x.authority x.holder with
  | none => (s, refuse .badField)
  | some h =>
    if x.inRange = false then (s, refuse .badField)
    else
      match s.findTag x.number with
      | none => (s, refuse .notFound)
      | some t =>
        if t.frozen then (s, refuse .frozen)
        else if t.holder ≠ h then (s.badAttempt t h, refuse .notHolder)
        else if s.widens t x = false then (s, refuse .badField)
        else if s.sectionsHeld t.feeder (x.sections.getD []) = false then (s, refuse .notFound)
        else ((s.modTag x.number x.apply).derive t.feeder, ok [])

/-- AMEND_TAG, command 20 (04 R74, R75). -/
def execAmendTag (p : Payload) (s : State) : Result := serve 20 readAmendTag amendTag p s

def releaseTag (x : ReleaseFields) (s : State) : State × Reply :=
  match holderOf x.authority x.holder with
  | none => (s, refuse .badField)
  | some h =>
    match s.findTag x.number with
    | none => (s, refuse .notFound)
    | some t =>
      if t.frozen then (s, refuse .frozen)
      else if t.holder = h then (s.retireTag t, ok [])
      else (s.badAttempt t h, refuse .notHolder)

/-- RELEASE_TAG, command 21 (04 R76, R77). -/
def execReleaseTag (p : Payload) (s : State) : Result := serve 21 readRelease releaseTag p s

def supervisorRelease (x : ReleaseFields) (s : State) : State × Reply :=
  match holderOf x.authority x.holder with
  | none => (s, refuse .badField)
  | some h =>
    if h.authority ≠ .localPanel then (s, refuse .notHolder)
    else
      match s.findTag x.number with
      | none => (s, refuse .notFound)
      | some t => (s.retireTag t, ok [])

/-- SUPERVISOR_RELEASE, command 22 (04 R78). -/
def execSupervisorRelease (p : Payload) (s : State) : Result := serve 22 readRelease supervisorRelease p s

/-- A whole tag record (04 R69) and its present position (R82). -/
def tagBytes (t : Tag) (position : Nat) : List Byte :=
  be2 t.number ++ feederByte t.feeder ++ be1 t.kind.place ++ listOf be1 t.scope ++ holderBytes t.holder
    ++ opt stampBytes t.placed ++ opt minuteBytes t.expiry ++ yes t.frozen ++ be1 t.badAttempts ++ be1 position

def readTag (n : Nat) (s : State) : State × Reply :=
  if n = 0 then (s, refuse .badField)
  else
    match s.findTag n with
    | some t => (s, ok (tagBytes t (s.tagPosition n)))
    | none => (s, refuse .notFound)

/-- READ_TAG, command 23 (04 R82). -/
def execReadTag (p : Payload) (s : State) : Result := serve 23 readWord readTag p s

/-- An entry of LIST_TAGS (04 R83). -/
def tagEntry (t : Tag) : List Byte :=
  be2 t.number ++ feederByte t.feeder ++ be1 t.kind.place ++ yes t.frozen ++ yes t.expiry.isSome

/-- The records that LIST_TAGS walks: all, or those of a feeder (04 R83). -/
def State.tagsOf (s : State) : Option Feeder → List Tag
  | none => s.tags
  | some f => s.tags.filter (fun t => decide (t.feeder = f))

/-- The optional feeder of a listing, when it is absent or in range. -/
def listFeeder : Option Nat → Option (Option Feeder)
  | none => some none
  | some n => (Ix4.ofNum n).map some

def listTags (x : ListTagsFields) (s : State) : State × Reply :=
  match listFeeder x.feeder with
  | none => (s, refuse .badField)
  | some f =>
    if 1 ≤ x.first ∧ x.first ≤ 48 ∧ 1 ≤ x.count ∧ x.count ≤ 12 then
      let ts := s.tagsOf f
      (s, ok (listOf tagEntry ((ts.drop (x.first - 1)).take x.count) ++ be1 ts.length))
    else (s, refuse .badField)

/-- LIST_TAGS, command 24 (04 R83). -/
def execListTags (p : Payload) (s : State) : Result := serve 24 readListTags listTags p s

/-- Permission Logic clears RESTORE_PENDING and derives the feeders that held it (04 R84, 06 R122). -/
def State.restore (s : State) : State :=
  let held := Ix4.all.filter (fun f => (s.inputs.get f).restorePending)
  ({ s with inputs := s.inputs.map (fun (i : Inputs) => { i with restorePending := false }) }).deriveMany held

def tagsRestored (_ : Unit) (s : State) : State × Reply := (s.restore, ok [])

/-- TAGS_RESTORED, command 25 (04 R84). -/
def execTagsRestored (p : Payload) (s : State) : Result := serve 25 readNothing tagsRestored p s

end Sys2Proof.Machine
end

