-- ==== Sys2Proof/Machine/CalendarCommands.lean ====
section
/-! DEFINITION. The commands of the Season Calendar, the second tick and the minute change (05). -/

namespace Sys2Proof.Machine

/-! ## Events -/

/-- SECOND_TICK (05 R89, R90, 02 R40): the calendar advances while SET, and the scrubber is served. A tick that carries the second
from 59 to 0 is a minute change, handed on in the order in which R91 lists its takers (log 9). -/
def execSecondTick (found : Option Content) (s : State) : Result := .next ((s.tickCalendar MinuteTaker.all).scrub found)

/-- MINUTE_CHANGE (05 R91): the second tick that carries the second from 59 to 0, its takers in an order given (log 9, log 10). While
the calendar is UNSET, or the second is not 59, no tick carries, and there is no minute change. -/
def execMinuteChange (tick : MinuteTick) (s : State) : Result :=
  .next (if s.cal.tick.2.isSome then (s.tickCalendar (wholeOrder tick.order)).scrub tick.found else s)

/-! ## The calendar (05 R92, R93, R108) -/

def setCalendar (k : Clock) (s : State) : State × Reply :=
  if k.real then (s.setClock k, ok []) else (s, refuse .badField)

/-- SET_CALENDAR, command 26 (05 R92, R93). -/
def execSetCalendar (p : Payload) (s : State) : Result := serve 26 readClock setCalendar p s

/-- The calendar's state, UNSET or SET. -/
def calendarState (c : Calendar) : List Byte := be1 (if c.clock.isSome then 1 else 0)

/-- The state, the seven fields while SET, and the trim in two's complement; the seven fields are present or absent together, under one
presence byte of their own (05 R108, log 14). -/
def calendarBytes (c : Calendar) : List Byte :=
  calendarState c ++ opt (fun (k : Clock) => stampBytes k.stamp ++ be1 k.weekday) c.clock ++ [BitVec.ofInt 8 c.trim]

def readCalendar (_ : Unit) (s : State) : State × Reply := (s, ok (calendarBytes s.cal))

/-- READ_CALENDAR, command 27 (05 R108). -/
def execReadCalendar (p : Payload) (s : State) : Result := serve 27 readNothing readCalendar p s

def setTrim (n : Nat) (s : State) : State × Reply :=
  let t := trimOfByte n
  if -100 ≤ t ∧ t ≤ 100 then ({ s with cal := { s.cal with trim := t } }, ok []) else (s, refuse .badField)

/-- SET_TRIM, command 28 (05 R89, R108). -/
def execSetTrim (p : Payload) (s : State) : Result := serve 28 readByte setTrim p s

/-! ## Windows (05 R94) -/

/-- The window that WRITE_WINDOW carries, when its fields are in range (05 R94). -/
def WindowFields.window (x : WindowFields) : Option Window :=
  match Mask.ofByte x.districts, onOff x.enabled with
  | some m, some e =>
    if realMonthDay x.startMonth x.startDay ∧ realMonthDay x.endMonth x.endDay ∧ 1 ≤ x.floor ∧ x.floor ≤ 5 then
      some ⟨x.startMonth, x.startDay, x.endMonth, x.endDay, m, x.floor, e⟩
    else none
  | _, _ => none

/-- A slot is written or cleared, evaluated, and the floors and levels derived (05 R94, R96, R97, R101). -/
def State.putWindow (s : State) (i : Ix4) (w : Option Window) : State :=
  s.recalendar (fun c => ({ c with windows := c.windows.set i w }).evaluate i)

def writeWindow (x : WindowFields) (s : State) : State × Reply :=
  match Ix4.ofNum x.slot, x.window with
  | some i, some w => (s.putWindow i (some w), ok [])
  | _, _ => (s, refuse .badField)

/-- WRITE_WINDOW, command 29 (05 R94). -/
def execWriteWindow (p : Payload) (s : State) : Result := serve 29 readWindowFields writeWindow p s

def clearWindow (n : Nat) (s : State) : State × Reply :=
  match Ix4.ofNum n with
  | some i => if (s.cal.windows.get i).isNone then (s, ok []) else (s.putWindow i none, ok [])
  | none => (s, refuse .badField)

/-- CLEAR_WINDOW, command 30 (05 R94). -/
def execClearWindow (p : Payload) (s : State) : Result := serve 30 readByte clearWindow p s

/-- A window record (05 R94). -/
def windowBytes (w : Window) : List Byte :=
  be1 w.startMonth ++ be1 w.startDay ++ be1 w.endMonth ++ be1 w.endDay ++ maskByte w.districts ++ be1 w.floor
    ++ firstOf w.enabled

/-- What READ_WINDOW answers: the content of the slot, whose presence byte is 0 for EMPTY, and whether the window is active (05 R94,
log 14). -/
def readWindow (n : Nat) (s : State) : State × Reply :=
  match Ix4.ofNum n with
  | some i => (s, ok (opt windowBytes (s.cal.windows.get i) ++ yes (s.cal.active.get i)))
  | none => (s, refuse .badField)

/-- READ_WINDOW, command 31 (05 R94). -/
def execReadWindow (p : Payload) (s : State) : Result := serve 31 readByte readWindow p s

/-! ## Declarations (05 R98, R99) -/

def declareLevel (x : DeclareFields) (s : State) : State × Reply :=
  match Mask.ofByte x.districts with
  | none => (s, refuse .badField)
  | some m =>
    if 5 < x.level ∨ expiryInRange x.untilMinute = false then (s, refuse .badField)
    else if (x.untilMinute.map s.afterNow).getD true = false then (s, refuse .badField)
    else
      let d := some (Declaration.mk x.level x.untilMinute)
      (s.recalendar (fun c => { c with declarations := writeDeclaration m d c.declarations }), ok [])

/-- DECLARE_LEVEL, command 32 (05 R98). -/
def execDeclareLevel (p : Payload) (s : State) : Result := serve 32 readDeclare declareLevel p s

def liftLevel (n : Nat) (s : State) : State × Reply :=
  match Mask.ofByte n with
  | some m => (s.recalendar (fun c => { c with declarations := writeDeclaration m none c.declarations }), ok [])
  | none => (s, refuse .badField)

/-- LIFT_LEVEL, command 33 (05 R99). -/
def execLiftLevel (p : Payload) (s : State) : Result := serve 33 readByte liftLevel p s

/-! ## The schedule (05 R103, R107) -/

/-- The when-fields of a recurrence are in range (05 R103). -/
def Recurrence.inRange : Recurrence → Bool
  | .daily h mi => decide (h ≤ 23 ∧ mi ≤ 59)
  | .weekly w h mi => decide (w ≤ 6 ∧ h ≤ 23 ∧ mi ≤ 59)
  | .monthly d h mi => decide (1 ≤ d ∧ d ≤ 31 ∧ h ≤ 23 ∧ mi ≤ 59)
  | .yearly mo d h mi => realMonthDay mo d && decide (h ≤ 23 ∧ mi ≤ 59)
  | .once m => m.real

/-- A duration is 1 to 10,080 minutes or none (05 R103). -/
def durationInRange : Option Nat → Bool
  | some n => decide (1 ≤ n ∧ n ≤ 10080)
  | none => true

/-- The action that ADD_ENTRY carries, when its fields are in range (05 R103). -/
def ActionFields.action : ActionFields → Option Action
  | .declare d l t =>
    match Mask.ofByte d with
    | some m => if l ≤ 5 ∧ durationInRange t then some (.declare m l t) else none
    | none => none
  | .lift d => (Mask.ofByte d).map .lift

/-- The repeat of its byte: 255 is PERPETUAL (log 17). -/
def repeatOf (n : Nat) : Option Nat := if n = 255 then none else some n

/-- The entry that ADD_ENTRY carries, when its fields are in range (05 R103 check 1). -/
def EntryFields.entry (x : EntryFields) : Option Entry :=
  match x.action.action with
  | some a =>
    if 1 ≤ x.slot ∧ x.slot ≤ 16 ∧ x.recurrence.inRange then some ⟨x.recurrence, a, repeatOf x.repeats⟩ else none
  | none => none

/-- A ONCE entry has repeat 0 and a minute later than the calendar's (05 R103 checks 3 and 4). -/
def State.onceAllowed (s : State) (e : Entry) : Bool :=
  match e.recurrence with
  | .once m => decide (e.repeats = some 0) && s.afterNow m
  | .daily _ _ | .weekly _ _ _ | .monthly _ _ _ | .yearly _ _ _ _ => true

/-- The schedule is written. -/
def State.putSchedule (s : State) (t : Table Entry) : State := { s with cal := { s.cal with schedule := t } }

def addEntry (x : EntryFields) (s : State) : State × Reply :=
  match x.entry with
  | none => (s, refuse .badField)
  | some e =>
    if (s.cal.schedule.find x.slot).isSome then (s, refuse .duplicate)
    else if s.onceAllowed e = false then (s, refuse .badField)
    else (s.putSchedule (s.cal.schedule.put x.slot e), ok [])

/-- ADD_ENTRY, command 34 (05 R103). -/
def execAddEntry (p : Payload) (s : State) : Result := serve 34 readEntryFields addEntry p s

/-- A schedule slot named by a payload byte: outside 1 to 16 the command is refused BAD_FIELD, and an EMPTY slot is answered
NOT_FOUND (05 R107). -/
def onEntry (n : Nat) (s : State) (k : Entry → State × Reply) : State × Reply :=
  if 1 ≤ n ∧ n ≤ 16 then
    match s.cal.schedule.find n with
    | some e => k e
    | none => (s, refuse .notFound)
  else (s, refuse .badField)

def deleteEntry (n : Nat) (s : State) : State × Reply :=
  onEntry n s (fun _ => (s.putSchedule (s.cal.schedule.erase n), ok []))

/-- DELETE_ENTRY, command 35 (05 R107). -/
def execDeleteEntry (p : Payload) (s : State) : Result := serve 35 readByte deleteEntry p s

/-- The place of a recurrence (05 R103). -/
def Recurrence.place : Recurrence → Nat
  | .daily _ _ => 0
  | .weekly _ _ _ => 1
  | .monthly _ _ _ => 2
  | .yearly _ _ _ _ => 3
  | .once _ => 4

/-- The when-fields of a recurrence. -/
def Recurrence.whenBytes : Recurrence → List Byte
  | .daily h mi => be1 h ++ be1 mi
  | .weekly w h mi => be1 w ++ be1 h ++ be1 mi
  | .monthly d h mi => be1 d ++ be1 h ++ be1 mi
  | .yearly mo d h mi => be1 mo ++ be1 d ++ be1 h ++ be1 mi
  | .once m => minuteBytes m

/-- The place of an action's kind (05 R103). -/
def Action.place : Action → Nat
  | .declare _ _ _ => 0
  | .lift _ => 1

/-- The fields of an action. -/
def Action.fieldBytes : Action → List Byte
  | .declare m l d => maskByte m ++ be1 l ++ opt be2 d
  | .lift m => maskByte m

/-- The byte of a repeat. -/
def repeatByte (n : Option Nat) : List Byte := be1 (n.getD 255)

/-- The fields of an entry with its remaining repeat (05 R107); the recurrence and the action say which fields follow them, and no
presence byte does (log 14). -/
def entryBytes (e : Entry) : List Byte :=
  be1 e.recurrence.place ++ e.recurrence.whenBytes ++ be1 e.action.place ++ e.action.fieldBytes ++ repeatByte e.repeats

def readEntry (n : Nat) (s : State) : State × Reply := onEntry n s (fun e => (s, ok (entryBytes e)))

/-- READ_ENTRY, command 36 (05 R107). -/
def execReadEntry (p : Payload) (s : State) : Result := serve 36 readByte readEntry p s

/-- An entry of LIST_ENTRIES (05 R107). -/
def entryLine (p : Nat × Entry) : List Byte :=
  be1 p.1 ++ be1 p.2.recurrence.place ++ be1 p.2.action.place ++ repeatByte p.2.repeats

def listEntries (x : Nat × Nat) (s : State) : State × Reply :=
  if 1 ≤ x.1 ∧ x.1 ≤ 16 ∧ 1 ≤ x.2 ∧ x.2 ≤ 8 then
    let lines := (s.cal.schedule.filter (fun p => decide (x.1 ≤ p.1))).take x.2
    (s, ok (listOf entryLine lines ++ be1 s.cal.schedule.length))
  else (s, refuse .badField)

/-- LIST_ENTRIES, command 37 (05 R107). -/
def execListEntries (p : Payload) (s : State) : Result := serve 37 readTwo listEntries p s

/-- The slots of the windows now active that name a district (05 R108). -/
def Calendar.activeSlots (c : Calendar) (d : District) : List Ix4 :=
  Ix4.all.filter (fun i => c.active.get i && ((c.windows.get i).map (fun w => w.districts.has d)).getD false)

/-- What READ_LEVELS gives of a district; the presence byte of the declaration is 0 for EMPTY (05 R108, log 14). -/
def districtBytes (c : Calendar) (d : District) : List Byte :=
  be1 (c.floors.get d) ++ listOf (fun i => be1 (Ix4.num i)) (c.activeSlots d)
    ++ opt (fun (x : Declaration) => be1 x.level ++ opt minuteBytes x.untilMinute) (c.declarations.get d)
    ++ be1 (c.levels.get d)

def readLevels (_ : Unit) (s : State) : State × Reply :=
  (s, ok (districtBytes s.cal .a ++ districtBytes s.cal .b ++ calendarState s.cal))

/-- READ_LEVELS, command 38 (05 R108). -/
def execReadLevels (p : Payload) (s : State) : Result := serve 38 readNothing readLevels p s

end Sys2Proof.Machine
end

