-- ==== Sys2Proof/Machine/ConditionCommands.lean ====
section
/-! DEFINITION. The commands of Permission Logic (06 R114, R124). -/

namespace Sys2Proof.Machine

/-- The byte of a group: its number, or 0 for SAFE or AUTO (log 35). -/
def groupByte (g : Option GroupNo) : List Byte := be1 ((g.map Ix4.num).getD 0)

def selectGroup (x : Nat × Nat) (s : State) : State × Reply :=
  match Ix4.ofNum x.1, forcedOfPlace x.2 with
  | some f, some g =>
    let s := (s.putInputs f { s.inputs.get f with forced := g }).derive f
    let c := s.cond.get f
    (s, ok (groupByte c.group ++ be1 c.source.place))
  | _, _ => (s, refuse .badField)

/-- SELECT_GROUP, command 39 (06 R114). -/
def execSelectGroup (p : Payload) (s : State) : Result := serve 39 readTwo selectGroup p s

/-- A Feeder Condition record with the inputs of its feeder and the fallback latch (06 R124). -/
def conditionBytes (c : Condition) (i : Inputs) (latch : Bool) : List Byte :=
  be1 c.level ++ groupByte c.group ++ be1 c.source.place ++ groupByte i.forced ++ causesByte c.causes
    ++ firstOf c.workMode ++ firstOf c.wish ++ exclusionBytes c.exclusion
    ++ firstOf i.hostBlock ++ firstOf i.restorePending ++ firstOf i.measLost ++ firstOf latch

def readCondition (n : Nat) (s : State) : State × Reply :=
  onFeeder n s (fun f => (s, ok (conditionBytes (s.cond.get f) (s.inputs.get f) s.latch)))

/-- READ_CONDITION, command 40 (06 R124). -/
def execReadCondition (p : Payload) (s : State) : Result := serve 40 readByte readCondition p s

end Sys2Proof.Machine
end

