-- ==== Sys2Proof/Machine/Hunt.lean ====
section
/-! DEFINITION. The commands of the Hunt Unit and the hold timer (08). -/

namespace Sys2Proof.Machine

def startHunt (n : Nat) (s : State) : State × Reply :=
  onFeeder n s (fun f =>
    let r := s.seq.get f
    if r.state.lockedOut = false then (s, refuse .wrongState)
    else if r.position ≠ .opened then (s, refuse .wrongState)
    else if (s.causes f).any Cause.blocksHunt then (s, refuse .wrongState)
    else
      let l := s.locate f
      let numbers := candidatesOf (s.sections.get f) l
      if numbers = [] then (s, refuse .notFound)
      else (s.startHuntOn f true l numbers, ok (be1 numbers.length)))

/-- START_HUNT, command 46 (08 R143, R144). -/
def execStartHunt (p : Payload) (s : State) : Result := serve 46 readByte startHunt p s

/-- A feeder's hunt record, named by a payload byte: a feeder out of range is refused BAD_FIELD, and one with no record is answered
NOT_FOUND (08 R160, R161). -/
def onHunt (n : Nat) (s : State) (k : Feeder → Hunt → State × Reply) : State × Reply :=
  onFeeder n s (fun f =>
    match s.hunts.get f with
    | some h => k f h
    | none => (s, refuse .notFound))

def abandonHunt (n : Nat) (s : State) : State × Reply :=
  onHunt n s (fun f h =>
    if h.phase.final then (s, refuse .wrongState) else (s.endHunt f (.abandoned .host) none, ok []))

/-- ABANDON_HUNT, command 47 (08 R160). -/
def execAbandonHunt (p : Payload) (s : State) : Result := serve 47 readByte abandonHunt p s

/-- An abandon detail: which kind it is, and its fields (log 19). -/
def huntDetailBytes : HuntDetail → List Byte
  | .cause c => be1 0 ++ be1 c.place
  | .device a w => be1 1 ++ be1 a ++ be1 w.place
  | .breaker e => be1 2 ++ be1 e.place

/-- A device of the needed set with its desired and acknowledged position (08 R161). -/
def neededLine (t : Table Device) (a : Nat) : List Byte :=
  be1 a ++ ((t.find a).map (fun d => switchByte d.desired ++ switchByte d.ack)).getD (switchByte none ++ switchByte none)

/-- The needed set of a hunt (08 R141). -/
def Hunt.needed (h : Hunt) : List Nat := if h.phase.devices then h.named else []

/-- A hunt record (08 R140, R161): the current candidate's place counts from 1 (log 37); the remaining time of the hold timer stands in
the place that R140 gives the timer (log 14); the needed set follows as a list in ascending address while the hunt runs, and in a final
record the payload ends before it, with neither a presence byte nor a count byte, since the state says whether it follows (log 14). -/
def huntBytes (t : Table Device) (h : Hunt) : List Byte :=
  be1 h.phase.place ++ opt be1 h.phase.awaiting ++ be1 (if h.hostStart then 1 else 0)
    ++ listOf (fun (c : Candidate) => be1 c.number ++ be1 c.status.place) h.candidates
    ++ opt (fun i => be1 (i + 1)) h.current ++ be1 h.budget ++ be1 h.used
    ++ opt be4 h.location.distance ++ opt (fun (w : Span) => be2 w.uncertainty) h.location.span
    ++ opt (fun (w : Span) => be4 w.low ++ be4 w.high) h.location.span
    ++ opt be2 h.hold ++ opt be1 h.isolating ++ opt (fun r => be1 (AbandonReason.place r)) h.phase.reason
    ++ opt huntDetailBytes h.detail
    ++ (if h.phase.final then [] else listOf (neededLine t) h.needed)

def readHunt (n : Nat) (s : State) : State × Reply := onHunt n s (fun _ h => (s, ok (huntBytes s.link.devices h)))

/-- READ_HUNT, command 48 (08 R161). -/
def execReadHunt (p : Payload) (s : State) : Result := serve 48 readByte readHunt p s

def dismissHunt (n : Nat) (s : State) : State × Reply :=
  onHunt n s (fun f h => if h.phase.final then (s.putHunt f none, ok []) else (s, refuse .wrongState))

/-- DISMISS_HUNT, command 49 (08 R161). -/
def execDismissHunt (p : Payload) (s : State) : Result := serve 49 readByte dismissHunt p s

/-- HOLD_TIMER_EXPIRY (08 R150): it comes when the hold timer has run down (log 3). -/
def execHoldTimerExpiry (f : Feeder) (s : State) : Result := .next (s.holdExpires f)

end Sys2Proof.Machine
end

