-- ==== Sys2Proof/Machine/Measurement.lean ====
section
/-! DEFINITION. The Sample Port and the Element Engine: interval reports, watch expiries, the five elements, and READ_ELEMENTS
(01). -/

namespace Sys2Proof.Machine

/-! ## Report frames (01 R1, R2, 11 R208) -/

/-- The quality of a report byte; a code that names none is INVALID (01 R1). -/
def Quality.ofByte : Nat → Quality
  | 0 => .good
  | 1 => .questionable
  | _ => .invalid

/-- A two-byte field of a frame. -/
def word (h l : Byte) : Nat := h.toNat * 256 + l.toNat

/-- The bounds of the currents, the residual current and the residual voltage (01 R2). -/
def mostPhase : Nat := 40000
def mostResidual : Nat := 20000
def mostVoltage : Nat := 2500
def mostReactance : Nat := 65000

/-- A report clamped field by field, with its over-range mark; an XE above 65000 is absent (01 R2). -/
def clampReport (f : Feeder) (seq ia ib ic ir vr xe : Nat) (q : Quality) : Report where
  feeder := f
  sequence := seq
  ia := min mostPhase ia
  ib := min mostPhase ib
  ic := min mostPhase ic
  ir := min mostResidual ir
  vr := min mostVoltage vr
  xe := if xe ≤ mostReactance then some xe else none
  overRange := decide (mostPhase < ia ∨ mostPhase < ib ∨ mostPhase < ic ∨ mostResidual < ir ∨ mostVoltage < vr)
  quality := q

/-- Reads a report frame: 17 whole bytes, the CRC-16 checks, and the feeder is 1 to 4 (01 R1, 11 R208). -/
def readReport (frame : List Byte) (cut : Bool) : Option Report :=
  match frame with
  | [f, n, a1, a0, b1, b0, c1, c0, r1, r0, v1, v0, x1, x0, q, _, _] =>
    if cut ∨ crcChecks frame = false then none
    else (Ix4.ofNum f.toNat).map (fun f =>
      clampReport f n.toNat (word a1 a0) (word b1 b0) (word c1 c0) (word r1 r0) (word v1 v0) (word x1 x0)
        (Quality.ofByte q.toNat))
  | _ => none

/-! ## Elements (01 R10 to R19, R22) -/

/-- The largest of the three phase currents. -/
def Report.phase (r : Report) : Nat := max r.ia (max r.ib r.ic)

/-- The measured quantity of an element (01 section 1.3). -/
def Element.quantity (e : Element) (r : Report) : Nat := if e.earth then r.ir else r.phase

/-- The multiple of pickup in sixty-fourths (01 R10). -/
def multiple (quantity pickup : Nat) : Nat := min 2560 (quantity * 64 / pickup)

/-- An element is held dropped: its enabled setting is off or its active-shot set lacks the shot index (01 R12). -/
def heldDropped (x : ElementSettings) (shot : Nat) : Bool := !x.enabled || !x.shots.getLsbD shot

/-- The pickup state that an evaluation finds (01 R11). -/
def picksUp (e : Element) (x : ElementSettings) (r : Report) (was : Bool) : Bool :=
  decide ((if was then 61 else 64) ≤ multiple (e.quantity r) x.pickup) && (decide (e ≠ .s1) || decide (x.vsup ≤ r.vr))

/-- The time that a curve gives for a multiple: that of the last breakpoint at or below it, and of the first breakpoint for a
multiple below the first (01 R13). -/
def Curve.time (c : Curve) (q : Nat) : Nat :=
  match c.breakpoints with
  | [] => 0
  | b :: rest => rest.foldl (fun t p => if p.q ≤ q then p.t else t) b.t

/-- The increment of a running sum (01 R14). -/
def increment (time tm : Nat) : Nat := 10000000 / max 10 (time * tm / 100)

/-- The fall of a running sum on a dropped report (01 R16). -/
def decay (sum resetTime : Nat) : Nat := if resetTime = 0 then 0 else sum - 10000000 / resetTime

/-- What an evaluation reads besides the report (01 R9). -/
structure Setting where
  element : Element
  settings : ElementSettings
  shot : Nat
  /-- The curve table named, when it is VALID. -/
  curve : Option Curve
  /-- The effective delay (01 R19). -/
  delay : Nat
  /-- The report's XE may be taken (01 R22). -/
  takesXE : Bool
  deriving DecidableEq, Repr

/-- The evaluation of an inverse-time element on a picked-up report (01 R15): the record's sum and operated state, and whether the
element operates. -/
def riseSum (r : ElementRecord) (inc : Nat) : ElementRecord × Bool :=
  let sum := min fullSum (r.progress + inc)
  let operates := decide (r.progress < fullSum ∧ sum = fullSum)
  ({ r with progress := sum, operated := r.operated || operates }, operates)

/-- The evaluation of a definite-time element on a picked-up report (01 R18). -/
def riseCount (r : ElementRecord) (delay : Nat) : ElementRecord × Bool :=
  let n := min fullCount (r.progress + 1)
  let operates := !r.operated && decide (delay ≤ n * 10)
  ({ r with progress := n, operated := r.operated || operates }, operates)

/-- The taken XE of a picked-up report (01 R22). -/
def takeXE (x : Setting) (p : Report) (r : ElementRecord) : Option Nat :=
  if x.takesXE then p.xe else if r.pickedUp then r.takenXE else none

/-- The evaluation of one element on a usable report (01 R9 to R18): its new record, and whether it operates. -/
def evaluate (x : Setting) (p : Report) (r : ElementRecord) : ElementRecord × Bool :=
  if heldDropped x.settings x.shot then (clearedElement, false)
  else if picksUp x.element x.settings p r.pickedUp then
    let up := { r with pickedUp := true, takenXE := takeXE x p r }
    if x.element.inverse then
      match x.curve with
      | some c => riseSum up (increment (c.time (multiple (x.element.quantity p) x.settings.pickup)) x.settings.tm)
      | none => (clearedElement, false)
    else riseCount up x.delay
  else
    (⟨false, if x.element.inverse then decay r.progress x.settings.resetTime else 0, false, none⟩, false)

/-- The effective delay of an element (01 R19). -/
def effectiveDelay (e : Element) (x : ElementSettings) (workMode ontoFault huntTest : Bool) : Nat :=
  if (workMode && x.workFast) || (ontoFault && decide (e = .p2 ∨ e = .e2)) || (huntTest && decide (e = .e2 ∨ e = .s1)) then 0
  else x.delay

/-- The report's XE may be taken: GOOD, present, within range, the constants VALID and IR at the locate threshold (01 R22). -/
def mayTakeXE (k : Option Constants) (p : Report) : Bool :=
  match k with
  | some k => decide (p.quality = .good) && p.xe.isSome && !p.overRange && decide (k.locateThreshold ≤ p.ir)
  | none => false

/-- What the evaluation of an element of a feeder reads as it stands (01 R9). -/
def State.settingOf (s : State) (p : Report) (e : Element) : Setting :=
  let f := p.feeder
  let q := s.seq.get f
  let x := (s.activeGroup f).elements.get e
  { element := e
    settings := x
    shot := q.shots
    curve := (s.store.curves.get x.curve).validContent
    delay := effectiveDelay e x (s.cond.get f).workMode q.ontoFault q.huntTest
    takesXE := mayTakeXE (s.constants f) p }

/-! ## The trip request (01 R20, R21, R23) -/

/-- The order in which the elements that operated are named (01 R20). -/
def tripOrder : List Element := [.p2, .p1, .e2, .e1, .s1]

/-- The snapshot of a trip request (01 R23). -/
def State.snapshotOf (s : State) (p : Report) (named : Element) (others : List Element) (xe : Option Nat) : Snapshot where
  element := named
  others := others
  shot := (s.seq.get p.feeder).shots
  time := s.cal.clock.map Clock.stamp
  phaseCurrent := p.phase
  residual := p.ir
  overRange := p.overRange
  xe := xe
  distance := match xe, s.constants p.feeder with
    | some xe, some k => some (distanceOf xe k.x1)
    | _, _ => none

/-- The elements that operated are handed on as one trip request: the notices, the snapshot, and the Sequencer (01 R20, R21,
R23). -/
def State.handTrip (s : State) (p : Report) (named : Element) (others : List Element) : State :=
  let f := p.feeder
  let q := s.seq.get f
  let s := s.give (.feeder f) (.trip named q.shots)
  let s := if q.position = .opened then s.give (.feeder f) (.positionAlarm (.element named)) else s
  let g := s.engine.get f
  let shot := s.snapshotOf p named others (g.elements.get named).takenXE
  (s.putEngine f { g with snapshot := some shot }).tripRequest f named

/-- The five elements of the report's feeder are evaluated (01 R9), and those that operate are handed on (R20): the first of the
order of R20 is named, and the others are listed in that order too (log 39). -/
def State.evaluateReport (s : State) (p : Report) : State :=
  let f := p.feeder
  let g := s.engine.get f
  let found := Five.build (fun e => evaluate (s.settingOf p e) p (g.elements.get e))
  let s := s.putEngine f { g with elements := Five.build (fun e => (found.get e).1) }
  match tripOrder.filter (fun e => (found.get e).2) with
  | [] => s
  | named :: others => s.handTrip p named others

/-! ## Reports (01 R3, R6, R7) -/

/-- A report is usable (01 R3). -/
def Report.usable (p : Report) (m : Sample) : Bool :=
  decide (p.quality ≠ .invalid) && decide (m.lastSequence ≠ some p.sequence)

/-- The measurement state after a usable report (01 R4, R6, R7). -/
def Sample.heard (m : Sample) (sequence : Nat) : Sample :=
  ⟨.valid, some watchTime, 0, some sequence, min fullRun (m.runCount + 1)⟩

/-- The measurement-lost flag of a feeder is written, and the feeder derived (06 R112, R122). -/
def State.setMeasLost (s : State) (f : Feeder) (b : Bool) : State :=
  (s.putInputs f { s.inputs.get f with measLost := b }).derive f

/-- A usable report is taken: the measurement state, the clearing of MEAS_LOST by the 50th in a row, then the evaluation (01 R3,
R6, R7). -/
def State.takeReport (s : State) (p : Report) : State :=
  let f := p.feeder
  let m := s.sample.get f
  let s := s.putSample f (m.heard p.sequence)
  let s := if m.runCount + 1 = fullRun ∧ (s.causes f).measLost then s.setMeasLost f false else s
  s.evaluateReport p

/-- INTERVAL_REPORT (01 R1 to R23). -/
def execIntervalReport (frame : List Byte) (cut : Bool) (s : State) : Result :=
  match readReport frame cut with
  | none => .next s
  | some p => .next (if p.usable (s.sample.get p.feeder) then s.takeReport p else s)

/-! ## Watch expiries (01 R4, R5) -/

/-- The entry into LOST (01 R5). -/
def State.loseMeasurements (s : State) (f : Feeder) (expiries : Nat) : State :=
  let s := s.putSample f ⟨.lost, none, expiries, none, 0⟩
  let s := s.putEngine f { s.engine.get f with elements := Five.fill clearedElement }
  (s.give (.feeder f) .measLost).setMeasLost f true

/-- The expiry of a feeder's watch timer (01 R4). -/
def State.watchExpires (s : State) (f : Feeder) : State :=
  let m := s.sample.get f
  match m.state with
  | .valid => s.putSample f { m with state := .held, expiries := 1, runCount := 0, watch := some watchTime }
  | .held =>
    if m.expiries + 1 < 5 then s.putSample f { m with expiries := m.expiries + 1, runCount := 0, watch := some watchTime }
    else s.loseMeasurements f 5
  | .lost => s

/-- WATCH_EXPIRY (01 R4): it comes when the watch timer has run down (log 3), so that a usable report taken first forestalls it. -/
def execWatchExpiry (f : Feeder) (s : State) : Result :=
  .next (if (s.sample.get f).watch = some 0 then s.watchExpires f else s)

/-! ## READ_ELEMENTS (01 R24) -/

/-- An element record: pickup state, sum or count, operated state, taken XE. -/
def elementBytes (e : Element) (r : ElementRecord) : List Byte :=
  yes r.pickedUp ++ (if e.inverse then be4 r.progress else be2 r.progress) ++ firstOf r.operated ++ opt be2 r.takenXE

/-- The payload of READ_ELEMENTS; the five elements have no count byte (01 R24, log 14). -/
def elementsBytes (m : Sample) (x : Five ElementRecord) : List Byte :=
  be1 m.state.place ++ be1 m.expiries ++ be1 m.runCount ++ opt be1 m.lastSequence
    ++ Element.all.flatMap (fun e => elementBytes e (x.get e))

def readElements (n : Nat) (s : State) : State × Reply :=
  onFeeder n s (fun f => (s, ok (elementsBytes (s.sample.get f) (s.engine.get f).elements)))

/-- READ_ELEMENTS, command 4 (01 R24). -/
def execReadElements (p : Payload) (s : State) : Result := serve 4 readByte readElements p s

end Sys2Proof.Machine
end

