-- ==== Sys2Proof/Machine/PoleLink.lean ====
section
/-! DEFINITION. The commands and the events of the Pole Link (09). -/

namespace Sys2Proof.Machine

/-! ## Writing and deleting records (09 R165, R166) -/

/-- The fields of WRITE_DEVICE in range (09 R165 check 1): the feeder, the kind, and whether the relay goes with the tier. -/
def DeviceFields.inRange (x : DeviceFields) : Option (Feeder × DeviceKind) :=
  match Ix4.ofNum x.feeder, DeviceKind.ofPlace x.kind with
  | some f, some k =>
    if 1 ≤ x.address ∧ x.address ≤ 30 ∧ ((x.tier = 1 ∧ x.relay = none) ∨ (x.tier = 2 ∧ x.relay.isSome)) then some (f, k)
    else none
  | _, _ => none

/-- A relay address names a held tier-1 record of a feeder, other than the record being written (09 R165 check 3). -/
def relayHolds (t : Table Device) (f : Feeder) (address relay : Nat) : Bool :=
  decide (relay ≠ address) && ((t.find relay).map (fun d => d.relay.isNone && decide (d.feeder = f))).getD false

/-- A record is named as relay by another (09 R165 check 6, R166). -/
def isRelay (t : Table Device) (address : Nat) : Bool :=
  t.any (fun p => decide (p.1 ≠ address ∧ p.2.relay = some address))

/-- A device heads a held section of some feeder (07 R133). -/
def State.heads (s : State) (address : Nat) : Bool := Ix4.all.any (fun f => headed (s.sections.get f) address)

/-- An order to a device is in flight or a resend to it waits. -/
def Link.busy (l : Link) (address : Nat) (d : Device) : Bool := d.inFlight.isSome || l.resends.contains address

/-- The checks 2 to 6 of WRITE_DEVICE, in order (09 R165). -/
def State.deviceCheck (s : State) (f : Feeder) (x : DeviceFields) : Option Status :=
  let t := s.link.devices
  let held := t.find x.address
  if held.isNone ∧ deviceCapacity ≤ t.length then some .full
  else if (x.relay.map (relayHolds t f x.address)).getD true = false then some .badField
  else
    match held with
    | none => none
    | some d =>
      if s.link.busy x.address d ∨ d.owner = .hunt then some .inUse
      else if d.feeder ≠ f ∧ s.heads x.address then some .inUse
      else if d.relay = none ∧ (x.tier = 2 ∨ d.feeder ≠ f) ∧ isRelay t x.address then some .inUse
      else none

/-- A new record (09 R165). -/
def newDevice (f : Feeder) (k : DeviceKind) (relay : Option Nat) : Device where
  feeder := f
  kind := k
  relay := relay
  desired := none
  owner := .host
  ack := none
  desiredBlock := none
  ackBlock := none
  posHeld := false
  blockHeld := false
  inFlight := none
  lastTag := none
  reach := .reachable
  probe := none
  probeDue := false

/-- A rewrite of a record keeps the desired position and the owner (09 R165), and the last tag sent (log 45); a SWITCH has no desired
block. -/
def Device.rewrite (f : Feeder) (k : DeviceKind) (relay : Option Nat) (d : Device) : Device :=
  { newDevice f k relay with
    desired := d.desired
    owner := d.owner
    desiredBlock := if k = .recloser then d.desiredBlock else none
    inFlight := d.inFlight
    lastTag := d.lastTag }

/-- The record that WRITE_DEVICE leaves; a RECLOSER takes its desired block from the wish of its feeder (09 R165, 06 R121). -/
def State.writtenDevice (s : State) (f : Feeder) (k : DeviceKind) (x : DeviceFields) : Device :=
  let d := match s.link.devices.find x.address with
    | some d => d.rewrite f k x.relay
    | none => newDevice f k x.relay
  d.wished (s.cond.get f).wish

def writeDevice (x : DeviceFields) (s : State) : State × Reply :=
  match x.inRange with
  | none => (s, refuse .badField)
  | some (f, k) =>
    match s.deviceCheck f x with
    | some st => (s, refuse st)
    | none => (s.putDevices (s.link.devices.put x.address (s.writtenDevice f k x)), ok [])

/-- WRITE_DEVICE, command 50 (09 R165). -/
def execWriteDevice (p : Payload) (s : State) : Result := serve 50 readDeviceFields writeDevice p s

/-- A device named by an address: out of range the command is refused BAD_FIELD, and one that no record bears is answered
NOT_FOUND (09 R166, R167). -/
def onDevice (n : Nat) (s : State) (k : Device → State × Reply) : State × Reply :=
  if 1 ≤ n ∧ n ≤ 30 then
    match s.link.devices.find n with
    | some d => k d
    | none => (s, refuse .notFound)
  else (s, refuse .badField)

def deleteDevice (n : Nat) (s : State) : State × Reply :=
  onDevice n s (fun d =>
    if s.heads n ∨ isRelay s.link.devices n ∨ s.link.busy n d then (s, refuse .inUse)
    else (s.putDevices (s.link.devices.erase n), ok []))

/-- DELETE_DEVICE, command 51 (09 R166). -/
def execDeleteDevice (p : Payload) (s : State) : Result := serve 51 readByte deleteDevice p s

/-! ## Reading records (09 R166) -/

/-- An in-flight order: its code, tag and send count, present or absent together (09 R164, log 14). -/
def orderBytes (o : Order) : List Byte := be1 o.code.place ++ be1 o.tag ++ be1 o.sends

/-- The tier and the relay of a record. -/
def tierBytes (d : Device) : List Byte := be1 (if d.relay.isSome then 2 else 1)

/-- Every field of a record, with the remaining times of its probe timer and of its reply timer (09 R166). -/
def deviceBytes (address : Nat) (d : Device) : List Byte :=
  be1 address ++ feederByte d.feeder ++ be1 d.kind.place ++ tierBytes d ++ opt be1 d.relay
    ++ switchByte d.desired ++ be1 d.owner.place ++ switchByte d.ack ++ blockByte d.desiredBlock ++ blockByte d.ackBlock
    ++ firstOf d.posHeld ++ firstOf d.blockHeld ++ opt orderBytes d.inFlight ++ opt be1 d.lastTag ++ be1 d.reach.place
    ++ opt be2 d.probe ++ opt be2 (d.inFlight.bind (·.timer))

def readDevice (n : Nat) (s : State) : State × Reply := onDevice n s (fun d => (s, ok (deviceBytes n d)))

/-- READ_DEVICE, command 52 (09 R166). -/
def execReadDevice (p : Payload) (s : State) : Result := serve 52 readByte readDevice p s

/-- An entry of LIST_DEVICES (09 R166). -/
def deviceLine (p : Nat × Device) : List Byte :=
  be1 p.1 ++ feederByte p.2.feeder ++ be1 p.2.kind.place ++ tierBytes p.2 ++ switchByte p.2.desired ++ switchByte p.2.ack
    ++ blockByte p.2.desiredBlock ++ blockByte p.2.ackBlock ++ be1 p.2.reach.place ++ yes p.2.inFlight.isSome

/-- The records that LIST_DEVICES returns. -/
def devicesOf (t : Table Device) : Option Feeder → Table Device
  | none => t
  | some f => t.filter (fun p => decide (p.2.feeder = f))

def listDevices (n : Option Nat) (s : State) : State × Reply :=
  match n with
  | none => (s, ok (listOf deviceLine s.link.devices))
  | some n => onFeeder n s (fun f => (s, ok (listOf deviceLine (devicesOf s.link.devices (some f)))))

/-- LIST_DEVICES, command 53 (09 R166). -/
def execListDevices (p : Payload) (s : State) : Result := serve 53 readOptByte listDevices p s

/-! ## Orders, the limit and LINK_CLEAR (09 R167, R171, R181, R182) -/

def orderSwitch (x : Nat × Nat) (s : State) : State × Reply :=
  match desiredOfPlace x.2 with
  | none => (s, refuse .badField)
  | some pos =>
    onDevice x.1 s (fun d =>
      if d.owner = .hunt then (s, refuse .inUse)
      else (s.modDevice x.1 (fun d => { d with desired := pos, posHeld := false }), ok []))

/-- ORDER_SWITCH, command 54 (09 R167). -/
def execOrderSwitch (p : Payload) (s : State) : Result := serve 54 readTwo orderSwitch p s

def setLinkLimit (n : Nat) (s : State) : State × Reply :=
  if n = 1 ∨ n = 2 ∨ n = 4 then
    if n < inFlightCount s.link.devices then (s, refuse .wrongState)
    else ({ s with link := { s.link with limit := n } }, ok [])
  else (s, refuse .badField)

/-- SET_LINK_LIMIT, command 55 (09 R171). -/
def execSetLinkLimit (p : Payload) (s : State) : Result := serve 55 readByte setLinkLimit p s

def linkClear (_ : Unit) (s : State) : State × Reply := (s.clearLink, ok [])

/-- LINK_CLEAR, command 56 (09 R181). -/
def execLinkClear (p : Payload) (s : State) : Result := serve 56 readNothing linkClear p s

/-- The order in flight of a record, with whether its resend waits and its reply timer (09 R182). -/
def orderLine (resends : List Nat) (p : Nat × Device) : List Byte :=
  be1 p.1 ++ (p.2.inFlight.map (fun o =>
    orderBytes o ++ yes (resends.contains p.1) ++ opt be2 o.timer)).getD []

/-- What READ_LINK returns; the four addresses last chosen have no count byte, and the number of orders in flight is the count byte of
their list, which runs in ascending address (09 R182, log 14). -/
def linkBytes (l : Link) : List Byte :=
  be1 (if l.sending.isSome then 1 else 0) ++ yes l.carrier ++ yes l.clearWaits ++ be1 l.limit ++ be1 l.tagCounter
    ++ l.lastChosen.toList.flatMap (opt be1)
    ++ listOf (orderLine l.resends) (l.devices.filter (fun p => p.2.inFlight.isSome))

/-- The carrier detect line as it stands (09 R169). -/
def State.senseCarrier (s : State) (carrier : Bool) : State := { s with link := { s.link with carrier := carrier } }

def readLink (_ : Unit) (s : State) : State × Reply := (s, ok (linkBytes s.link))

/-- READ_LINK, command 57 (09 R182). `carrier` is the carrier detect line as it stands at the command (log 6). -/
def execReadLink (p : Payload) (carrier : Bool) (s : State) : Result :=
  serve 57 readNothing readLink p (s.senseCarrier carrier)

/-! ## Events (09 R169 to R179) -/

/-- REPLY_FRAME (09 R175 to R178, 11 R210): the frame ends as the carrier drops. -/
def execReplyFrame (frame : List Byte) (cut : Bool) (s : State) : Result :=
  let s := s.senseCarrier false
  match readReplyFrame frame cut with
  | some r => .next (s.takeReply r)
  | none => .next s

/-- FRAME_SENT (09 R169, R172): it comes while the transmitter is SENDING. -/
def execFrameSent (s : State) : Result := .next { s with link := s.link.frameSent }

/-- REPLY_TIMER_EXPIRY (09 R173, R174): it comes when the reply timer has run down (log 3). -/
def execReplyTimerExpiry (address : Nat) (s : State) : Result := .next (s.replyExpires address)

/-- PROBE_TIMER_EXPIRY (09 R179): it comes when the probe timer has run down (log 3). -/
def execProbeTimerExpiry (address : Nat) (s : State) : Result := .next (s.probeExpires address)

/-- ARBITER_CHOICE (09 R170): the arbiter chooses where the rule allows a choice. It is a command of its own, so that others can
stand between it and the event that freed the transmitter (log 43). -/
def execArbiterChoice (carrier : Bool) (s : State) : Result :=
  let s := s.senseCarrier carrier
  .next { s with link := s.link.arbitrate }

/-- RESEND (09 R169, R173): the first waiting resend starts where the transmitter is free for it (log 43). -/
def execResend (carrier : Bool) (s : State) : Result :=
  let s := s.senseCarrier carrier
  .next { s with link := s.link.startResend }

/-- CLEAR_FRAME (09 R169, R181): the waiting clear frame starts where the transmitter is free for it (log 43). -/
def execClearFrame (carrier : Bool) (s : State) : Result :=
  let s := s.senseCarrier carrier
  .next { s with link := s.link.startClear }

end Sys2Proof.Machine
end

