-- ==== Sys2Proof/Machine/PortCommands.lean ====
section
/-! DEFINITION. The Command Port's own commands, the transactions that carry no command, and the resets (11). -/

namespace Sys2Proof.Machine

/-- NOP, command 0 (11 R202): its execution leaves the response buffer as it stood. -/
def execNop (p : Payload) (s : State) : Result :=
  goodFrame s (fun s =>
    match readNothing p with
    | some _ => s
    | none => respond 0 (s, refuse .badField))

def resetPart (_ : Unit) (s : State) : State × Reply :=
  ({ s with port := { s.port with phase := .resetPending } }, ok [])

/-- RESET_PART, command 1 (11 R203): a warm reset becomes pending. -/
def execResetPart (p : Payload) (s : State) : Result := serve 1 readNothing resetPart p s

def readStartReason (_ : Unit) (s : State) : State × Reply :=
  (s, ok (startReason s.port.kind s.port.warmCount s.port.marker).payload)

/-- READ_START_REASON, command 2 (11 R205). -/
def execReadStartReason (p : Payload) (s : State) : Result := serve 2 readNothing readStartReason p s

def writeMarker (n : Nat) (s : State) : State × Reply :=
  ({ s with port := { s.port with marker := byte n } }, ok [byte n])

/-- WRITE_MARKER, command 3 (11 R205). -/
def execWriteMarker (p : Payload) (s : State) : Result := serve 3 readByte writeMarker p s

/-- FRAME_ERROR (11 R199): the frame changes no state of any block, does not restart supervision, and is answered FRAME_ERROR with
the first byte echoed. With a RESET_PART pending the transaction performs the reset (R203). -/
def execFrameError (first : Byte) (s : State) : Result :=
  .next (s.endTransaction (fun s => s.answer first (refuse .frameError)))

/-- UNKNOWN_COMMAND (11 R200): a good frame whose code names no command. -/
def execUnknownCommand (code : Byte) (s : State) : Result := goodFrame s (fun s => s.answer code (refuse .unknownCommand))

/-- EMPTY_TRANSACTION (11 R197): nothing changes, and a pending RESET_PART is not performed (R203). Its end is a rise of nCS all the
same, for which the port waits after a reset that cut a transaction short (R206). -/
def execEmptyTransaction (s : State) : Result :=
  .next (if s.port.phase = .cut then { s with port := { s.port with phase := .ready } } else s)

/-- COLD_RESET (11 R204; 01 R25, 02 R45, 03 R68, 04 R86, 05 R110, 06 R126, 07 R139, 08 R163, 09 R184, 10 R196). -/
def execColdReset (pins : Pins) (s : State) : Result := .next (State.cold pins s.pending)

/-- WARM_RESET (11 R203, R204): by the nWARM pin, or by the transaction after a RESET_PART while it is pending (log 11). -/
def execWarmReset (source : WarmSource) (pins : Pins) (s : State) : Result :=
  match source with
  | .pin => .next (s.warmReset .warmPin pins)
  | .transaction => .next (if s.port.phase = .resetPending then s.performReset pins else s)

end Sys2Proof.Machine
end

