-- ==== Sys2Proof/Machine/Sections.lean ====
section
/-! DEFINITION. The commands of the Section Map (07). -/

namespace Sys2Proof.Machine

/-! ## WRITE_SECTION (07 R129) -/

/-- The fields of WRITE_SECTION, by the place that names the one at fault (07 R129, log 18). -/
inductive SectionField where
  | feeder | slot | base | limit | parent | head | enabled
  deriving DecidableEq, Repr

def SectionField.place : SectionField → Nat
  | .feeder => 0
  | .slot => 1
  | .base => 2
  | .limit => 3
  | .parent => 4
  | .head => 5
  | .enabled => 6

/-- A refusal of WRITE_SECTION, with the field at fault. -/
abbrev SectionFault := Status × SectionField

/-- Check 1: every field in range, in the order of the fields. -/
def SectionFields.outOfRange (x : SectionFields) : Option SectionField :=
  if (Ix4.ofNum x.feeder).isNone then some .feeder
  else if x.number < 1 ∨ 16 < x.number then some .slot
  else if farthest < x.base then some .base
  else if farthest < x.limit then some .limit
  else if 16 < x.parent then some .parent
  else if (x.head.map (fun h => decide (1 ≤ h ∧ h ≤ 30))).getD true = false then some .head
  else if (onOff x.enabled).isNone then some .enabled
  else none

/-- A device heads a section other than one of a feeder. -/
def State.headsOther (s : State) (f : Feeder) (n address : Nat) : Bool :=
  Ix4.all.any (fun g => (s.sections.get g).any (fun p =>
    decide (p.2.head = some address) && !decide (g = f ∧ p.1 = n)))

/-- A device is a record of the device table whose feeder is a given one (07 R129 check 7). -/
def State.deviceOn (s : State) (f : Feeder) (address : Nat) : Bool :=
  ((s.link.devices.find address).map (fun d => decide (d.feeder = f))).getD false

/-- The checks 2 to 8 of WRITE_SECTION, in order (07 R129). -/
def State.sectionCheck (s : State) (f : Feeder) (x : SectionFields) : Option SectionFault :=
  let t := s.sections.get f
  if x.limit < x.base then some (.badField, .limit)
  else if s.huntRuns f then some (.inUse, .feeder)
  else if (t.find x.number).isSome ∧ s.tagNames f x.number then some (.inUse, .slot)
  else if x.parent ≠ 0 ∧ ((t.find x.parent).isNone ∨ x.parent = x.number) then some (.badField, .parent)
  else if x.parent ≠ 0 ∧ (x.parent :: ancestors t x.parent).contains x.number then some (.badField, .parent)
  else if (x.head.map (s.deviceOn f)).getD true = false then some (.badField, .head)
  else if (x.head.map (s.headsOther f x.number)).getD false then some (.badField, .head)
  else none

/-- The section map of a feeder is written. -/
def State.putSections (s : State) (f : Feeder) (t : Table Section) : State := { s with sections := s.sections.set f t }

/-- The record that WRITE_SECTION carries. -/
def SectionFields.record (x : SectionFields) : Section :=
  ⟨x.base, x.limit, x.parent, x.head, (onOff x.enabled).getD false⟩

/-- A refusal that names a field. -/
def refuseField (x : SectionFault) : Reply := ⟨x.1, be1 x.2.place⟩

def writeSection (x : SectionFields) (s : State) : State × Reply :=
  match x.outOfRange with
  | some w => (s, refuseField (.badField, w))
  | none =>
    onFeeder x.feeder s (fun f =>
      match s.sectionCheck f x with
      | some w => (s, refuseField w)
      | none => (s.putSections f ((s.sections.get f).put x.number x.record), ok []))

/-- WRITE_SECTION, command 41 (07 R129, R131). -/
def execWriteSection (p : Payload) (s : State) : Result := serve 41 readSectionFields writeSection p s

/-! ## Deleting and reading (07 R132, R134) -/

/-- Why a held section is IN_USE (07 R130, R134). -/
inductive UseReason where
  | hunt | tag | parent
  deriving DecidableEq, Repr

def UseReason.place : UseReason → Nat
  | .hunt => 0
  | .tag => 1
  | .parent => 2

/-- The first reason for which a held section is IN_USE, in the order hunt, tag, parent (07 R130, log 42). -/
def State.inUse (s : State) (f : Feeder) (n : Nat) : Option UseReason :=
  if s.huntRuns f then some .hunt
  else if s.tagNames f n then some .tag
  else if childrenOf (s.sections.get f) n ≠ [] then some .parent
  else none

/-- A feeder and a section number named by a payload: out of range the command is refused BAD_FIELD. -/
def onSection (x : Nat × Nat) (s : State) (k : Feeder → Nat → State × Reply) : State × Reply :=
  onFeeder x.1 s (fun f => if 1 ≤ x.2 ∧ x.2 ≤ 16 then k f x.2 else (s, refuse .badField))

def deleteSection (x : Nat × Nat) (s : State) : State × Reply :=
  onSection x s (fun f n =>
    if ((s.sections.get f).find n).isNone then (s, refuse .notFound)
    else if (s.inUse f n).isSome then (s, refuse .inUse)
    else (s.putSections f ((s.sections.get f).erase n), ok []))

/-- DELETE_SECTION, command 42 (07 R132). -/
def execDeleteSection (p : Payload) (s : State) : Result := serve 42 readTwo deleteSection p s

/-- The fields of a section record (07 R127). -/
def sectionBytes (x : Section) : List Byte :=
  be4 x.base ++ be4 x.limit ++ be1 x.parent ++ opt be1 x.head ++ firstOf x.enabled

/-- A held section with its depth, its children in ascending number and why it is IN_USE; the presence byte of the reason says whether it
is IN_USE (07 R134, log 14). -/
def State.sectionReply (s : State) (f : Feeder) (n : Nat) (x : Section) : List Byte :=
  let t := s.sections.get f
  sectionBytes x ++ be1 (depthOf t n) ++ listOf be1 (childrenOf t n)
    ++ opt (fun r => be1 (UseReason.place r)) (s.inUse f n)

/-- What READ_SECTION answers: the section with what is said of it, whose presence byte is 0 for EMPTY (07 R134, log 14). -/
def readSection (x : Nat × Nat) (s : State) : State × Reply :=
  onSection x s (fun f n => (s, ok (opt (s.sectionReply f n) ((s.sections.get f).find n))))

/-- READ_SECTION, command 43 (07 R134). -/
def execReadSection (p : Payload) (s : State) : Result := serve 43 readTwo readSection p s

/-- An entry of LIST_SECTIONS (07 R134); the count held is the list's own count byte (log 14). -/
def sectionLine (t : Table Section) (p : Nat × Section) : List Byte :=
  be1 p.1 ++ sectionBytes p.2 ++ be1 (depthOf t p.1)

def listSections (n : Nat) (s : State) : State × Reply :=
  onFeeder n s (fun f => let t := s.sections.get f; (s, ok (listOf (sectionLine t) t)))

/-- LIST_SECTIONS, command 44 (07 R134). -/
def execListSections (p : Payload) (s : State) : Result := serve 44 readByte listSections p s

/-! ## LOCATE (07 R138) -/

/-- The distance that LOCATE locates: of the XE carried, or of the fault snapshot (07 R138). -/
def State.locateDistance (s : State) (f : Feeder) (xe : Option Nat) : Option Nat :=
  match xe with
  | some xe => (s.constants f).map (fun k => distanceOf xe k.x1)
  | none => s.snapshotDistance f

/-- A candidate with its depth, base, limit and head device. -/
def candidateLine (t : Table Section) (n : Nat) : List Byte :=
  be1 n ++ be1 (depthOf t n)
    ++ ((t.find n).map (fun x => be4 x.base ++ be4 x.limit ++ opt be1 x.head)).getD []

/-- The payload of LOCATE: the distance, the uncertainty and window under one presence byte (log 14), where they came from, and the
candidates, whose count byte is their number (07 R138, log 14). The byte that says where they came from is given with a window and
without one, by whether an XE was carried (log 14). -/
def locateBytes (t : Table Section) (l : Location) (carried : Bool) : List Byte :=
  opt be4 l.distance ++ opt (fun (w : Span) => be2 w.uncertainty ++ be4 w.low ++ be4 w.high) l.span ++ yes carried
    ++ listOf (candidateLine t) (candidatesOf t l)

/-- What LOCATE answers; a distance without VALID constants makes no window (07 R135, R138). -/
def locate (x : Nat × Option Nat) (s : State) : State × Reply :=
  onFeeder x.1 s (fun f =>
    if (x.2.map (fun n => decide (n ≤ 65000))).getD true = false then (s, refuse .badField)
    else
      let l := makeLocation (s.constants f) (s.locateDistance f x.2)
      (s, ok (locateBytes (s.sections.get f) l x.2.isSome)))

/-- LOCATE, command 45 (07 R138). -/
def execLocate (p : Payload) (s : State) : Result := serve 45 readLocate locate p s

end Sys2Proof.Machine
end

