-- ==== Sys2Proof/Machine/Settings.lean ====
section
/-! DEFINITION. The commands of the Settings Store and the completion of a commit (02). -/

namespace Sys2Proof.Machine

/-- Writes the staging area. -/
def State.putStaging (s : State) (g : Staging) : State := { s with store := { s.store with staging := g } }

/-! ## Staging (02 R33 to R36) -/

def openStaging (t : TargetFields) (s : State) : State × Reply :=
  match s.store.staging with
  | .opened _ => (s, refuse .wrongState)
  | .committing _ => (s, refuse .busy)
  | .closed =>
    match t.target with
    | some x => (s.putStaging (.opened (s.store.draftOf x)), ok [])
    | none => (s, refuse .badField)

/-- OPEN_STAGING, command 5 (02 R33; the state is judged before the range, log 21). -/
def execOpenStaging (p : Payload) (s : State) : Result := serve 5 readTarget (busyWhileCommitting openStaging) p s

def writeStaged (w : StagedFields) (s : State) : State × Reply :=
  match s.store.staging with
  | .closed => (s, refuse .noStaging)
  | .committing _ => (s, refuse .wrongState)
  | .opened d =>
    match d.write w with
    | some d => (s.putStaging (.opened d), ok [])
    | none => (s, refuse .badField)

/-- WRITE_STAGED, command 6 (02 R34). -/
def execWriteStaged (p : Payload) (s : State) : Result := serve 6 readStaged writeStaged p s

/-- The staging state, and while it is OPEN or COMMITTING its target and its working copy; no presence byte stands before them, since
the state says whether they follow (02 R35, log 14). -/
def stagingBytes : Staging → List Byte
  | .closed => be1 0
  | .opened d => be1 1 ++ targetBytes d.target ++ d.bytes
  | .committing d => be1 2 ++ targetBytes d.target ++ d.bytes

def readStaging (_ : Unit) (s : State) : State × Reply := (s, ok (stagingBytes s.store.staging))

/-- READ_STAGING, command 7 (02 R35). -/
def execReadStaging (p : Payload) (s : State) : Result := serve 7 readNothing readStaging p s

def discardStaging (_ : Unit) (s : State) : State × Reply :=
  match s.store.staging with
  | .closed => (s, refuse .noStaging)
  | .committing _ => (s, refuse .wrongState)
  | .opened _ => (s.putStaging .closed, ok [])

/-- DISCARD_STAGING, command 8 (02 R35). -/
def execDiscardStaging (p : Payload) (s : State) : Result := serve 8 readNothing discardStaging p s

def commitStaging (_ : Unit) (s : State) : State × Reply :=
  match s.store.staging with
  | .closed => (s, refuse .noStaging)
  | .committing _ => (s, refuse .busy)
  | .opened d =>
    match s.store.commitCheck d with
    | some (row, index) => (s, ⟨.badField, be1 row ++ be1 index⟩)
    | none => (s.putStaging (.committing d), ok [])

/-- COMMIT_STAGING, command 9 (02 R36, R37). -/
def execCommitStaging (p : Payload) (s : State) : Result := serve 9 readNothing (busyWhileCommitting commitStaging) p s

/-- COMMIT_COMPLETION (02 R38, R39): it comes while a commit is in flight. -/
def execCommitCompletion (found : Option Content) (s : State) : Result :=
  match s.store.staging with
  | .committing d => .next (s.completeCommit d found)
  | .closed | .opened _ => .next s

/-! ## Reading the store (02 R42, R43) -/

/-- The place of a record's state: EMPTY, VALID or FAULTY (02 R26). -/
def Stored.place {α : Type} : Stored α → Nat
  | .empty => 0
  | .valid _ _ => 1
  | .faulty _ _ => 2

/-- The content of a record that is not EMPTY. -/
def Stored.content {α : Type} : Stored α → Option α
  | .empty => none
  | .valid c _ => some c
  | .faulty c _ => some c

/-- The state of a record, and its fields as stored when it holds any, with no presence byte, since the state says whether they
follow (02 R42, log 14). -/
def storedBytes {α : Type} (enc : α → List Byte) (x : Stored α) : List Byte := be1 x.place ++ (x.content.map enc).getD []

/-- The fields of a group in the order of the table of R27; those that stand once for each element or dead time are a fixed number and
have no count byte (log 14). -/
def groupBytes (g : Group) : List Byte := groupFields.flatMap (fun x => x.bytes g)

/-- The breakpoints of a curve, up to its count; the count of R42 is the count byte of the list (log 14). -/
def curveBytes (c : Curve) : List Byte := listOf (fun (b : Breakpoint) => be2 b.q ++ be4 b.t) c.breakpoints

/-- The fields of a constants record in the order of the table of R29; the map entries are a fixed number and have no count byte
(log 14). -/
def constantsBytes (k : Constants) : List Byte := constantFields.flatMap (fun x => x.bytes k.draft)

def readGroup (n : Nat × Nat) (s : State) : State × Reply :=
  match Ix4.ofNum n.1, Ix4.ofNum n.2 with
  | some f, some g => (s, ok (storedBytes groupBytes ((s.store.groups.get f).get g)))
  | _, _ => (s, refuse .badField)

/-- READ_GROUP, command 10 (02 R42). -/
def execReadGroup (p : Payload) (s : State) : Result := serve 10 readTwo (busyWhileCommitting readGroup) p s

def readCurve (n : Nat) (s : State) : State × Reply :=
  match Ix4.ofPlace n with
  | some i => (s, ok (storedBytes curveBytes (s.store.curves.get i)))
  | none => (s, refuse .badField)

/-- READ_CURVE, command 11 (02 R42). -/
def execReadCurve (p : Payload) (s : State) : Result := serve 11 readByte (busyWhileCommitting readCurve) p s

def readConstants (n : Nat) (s : State) : State × Reply :=
  onFeeder n s (fun f => (s, ok (storedBytes constantsBytes (s.store.constants.get f))))

/-- READ_CONSTANTS, command 12 (02 R42). -/
def execReadConstants (p : Payload) (s : State) : Result := serve 12 readByte (busyWhileCommitting readConstants) p s

/-- The place of the state of the record at a position. -/
def Store.placeAt (t : Store) (n : Nat) : Nat := ((Target.ofPosition n).map (fun x => (t.look x).place)).getD 0

/-- The staging state, and while it is OPEN or COMMITTING its target; no presence byte stands before the target, since the state says
whether it follows (02 R43, log 14). -/
def stagingTarget : Staging → List Byte
  | .closed => be1 0
  | .opened d => be1 1 ++ targetBytes d.target
  | .committing d => be1 2 ++ targetBytes d.target

/-- The states of the records in the order of R40, 24 bytes with no count byte (log 14), the staging state, and the scrub pointer (02
R43). -/
def Store.statusBytes (t : Store) : List Byte :=
  (List.range 24).flatMap (fun i => be1 (t.placeAt (i + 1))) ++ stagingTarget t.staging ++ be1 t.scrub

def readStoreStatus (_ : Unit) (s : State) : State × Reply := (s, ok s.store.statusBytes)

/-- READ_STORE_STATUS, command 13 (02 R43). -/
def execReadStoreStatus (p : Payload) (s : State) : Result := serve 13 readNothing readStoreStatus p s

end Sys2Proof.Machine
end

