-- ==== Sys2Proof/Machine/Dispatch.lean ====
section
/-! DEFINITION. The dispatch of a command to its meaning: one arm per constructor of Instr. -/

namespace Sys2Proof.Machine

def exec (i : Instr) (s : State) : Host.Outcome State Fault Refusal :=
  match i with
  | .nop payload => Sys2Proof.Machine.execNop payload s
  | .resetPart payload => Sys2Proof.Machine.execResetPart payload s
  | .readStartReason payload => Sys2Proof.Machine.execReadStartReason payload s
  | .writeMarker payload => Sys2Proof.Machine.execWriteMarker payload s
  | .readElements payload => Sys2Proof.Machine.execReadElements payload s
  | .openStaging payload => Sys2Proof.Machine.execOpenStaging payload s
  | .writeStaged payload => Sys2Proof.Machine.execWriteStaged payload s
  | .readStaging payload => Sys2Proof.Machine.execReadStaging payload s
  | .discardStaging payload => Sys2Proof.Machine.execDiscardStaging payload s
  | .commitStaging payload => Sys2Proof.Machine.execCommitStaging payload s
  | .readGroup payload => Sys2Proof.Machine.execReadGroup payload s
  | .readCurve payload => Sys2Proof.Machine.execReadCurve payload s
  | .readConstants payload => Sys2Proof.Machine.execReadConstants payload s
  | .readStoreStatus payload => Sys2Proof.Machine.execReadStoreStatus payload s
  | .closeBreaker payload => Sys2Proof.Machine.execCloseBreaker payload s
  | .openBreaker payload => Sys2Proof.Machine.execOpenBreaker payload s
  | .clearBreakerFail payload => Sys2Proof.Machine.execClearBreakerFail payload s
  | .setHostBlock payload => Sys2Proof.Machine.execSetHostBlock payload s
  | .readFeeder payload => Sys2Proof.Machine.execReadFeeder payload s
  | .placeTag payload => Sys2Proof.Machine.execPlaceTag payload s
  | .amendTag payload => Sys2Proof.Machine.execAmendTag payload s
  | .releaseTag payload => Sys2Proof.Machine.execReleaseTag payload s
  | .supervisorRelease payload => Sys2Proof.Machine.execSupervisorRelease payload s
  | .readTag payload => Sys2Proof.Machine.execReadTag payload s
  | .listTags payload => Sys2Proof.Machine.execListTags payload s
  | .tagsRestored payload => Sys2Proof.Machine.execTagsRestored payload s
  | .setCalendar payload => Sys2Proof.Machine.execSetCalendar payload s
  | .readCalendar payload => Sys2Proof.Machine.execReadCalendar payload s
  | .setTrim payload => Sys2Proof.Machine.execSetTrim payload s
  | .writeWindow payload => Sys2Proof.Machine.execWriteWindow payload s
  | .clearWindow payload => Sys2Proof.Machine.execClearWindow payload s
  | .readWindow payload => Sys2Proof.Machine.execReadWindow payload s
  | .declareLevel payload => Sys2Proof.Machine.execDeclareLevel payload s
  | .liftLevel payload => Sys2Proof.Machine.execLiftLevel payload s
  | .addEntry payload => Sys2Proof.Machine.execAddEntry payload s
  | .deleteEntry payload => Sys2Proof.Machine.execDeleteEntry payload s
  | .readEntry payload => Sys2Proof.Machine.execReadEntry payload s
  | .listEntries payload => Sys2Proof.Machine.execListEntries payload s
  | .readLevels payload => Sys2Proof.Machine.execReadLevels payload s
  | .selectGroup payload => Sys2Proof.Machine.execSelectGroup payload s
  | .readCondition payload => Sys2Proof.Machine.execReadCondition payload s
  | .writeSection payload => Sys2Proof.Machine.execWriteSection payload s
  | .deleteSection payload => Sys2Proof.Machine.execDeleteSection payload s
  | .readSection payload => Sys2Proof.Machine.execReadSection payload s
  | .listSections payload => Sys2Proof.Machine.execListSections payload s
  | .locate payload => Sys2Proof.Machine.execLocate payload s
  | .startHunt payload => Sys2Proof.Machine.execStartHunt payload s
  | .abandonHunt payload => Sys2Proof.Machine.execAbandonHunt payload s
  | .readHunt payload => Sys2Proof.Machine.execReadHunt payload s
  | .dismissHunt payload => Sys2Proof.Machine.execDismissHunt payload s
  | .writeDevice payload => Sys2Proof.Machine.execWriteDevice payload s
  | .deleteDevice payload => Sys2Proof.Machine.execDeleteDevice payload s
  | .readDevice payload => Sys2Proof.Machine.execReadDevice payload s
  | .listDevices payload => Sys2Proof.Machine.execListDevices payload s
  | .orderSwitch payload => Sys2Proof.Machine.execOrderSwitch payload s
  | .setLinkLimit payload => Sys2Proof.Machine.execSetLinkLimit payload s
  | .linkClear payload => Sys2Proof.Machine.execLinkClear payload s
  | .readLink payload carrier => Sys2Proof.Machine.execReadLink payload carrier s
  | .setAttentionLevel payload => Sys2Proof.Machine.execSetAttentionLevel payload s
  | .setMaskLevel payload => Sys2Proof.Machine.execSetMaskLevel payload s
  | .fetchAttention payload => Sys2Proof.Machine.execFetchAttention payload s
  | .readAttention payload => Sys2Proof.Machine.execReadAttention payload s
  | .setSupervision payload => Sys2Proof.Machine.execSetSupervision payload s
  | .frameError first => Sys2Proof.Machine.execFrameError first s
  | .unknownCommand code => Sys2Proof.Machine.execUnknownCommand code s
  | .emptyTransaction => Sys2Proof.Machine.execEmptyTransaction s
  | .coldReset pins => Sys2Proof.Machine.execColdReset pins s
  | .warmReset source pins => Sys2Proof.Machine.execWarmReset source pins s
  | .intervalReport frame cut => Sys2Proof.Machine.execIntervalReport frame cut s
  | .watchExpiry feeder => Sys2Proof.Machine.execWatchExpiry feeder s
  | .decodedPositionChange feeder contacts => Sys2Proof.Machine.execDecodedPositionChange feeder contacts s
  | .tripFailExpiry feeder => Sys2Proof.Machine.execTripFailExpiry feeder s
  | .closeFailExpiry feeder => Sys2Proof.Machine.execCloseFailExpiry feeder s
  | .deadTimerExpiry feeder => Sys2Proof.Machine.execDeadTimerExpiry feeder s
  | .reclaimTimerExpiry feeder => Sys2Proof.Machine.execReclaimTimerExpiry feeder s
  | .closeOntoFaultWindowExpiry feeder => Sys2Proof.Machine.execCloseOntoFaultWindowExpiry feeder s
  | .holdTimerExpiry feeder => Sys2Proof.Machine.execHoldTimerExpiry feeder s
  | .commitCompletion found => Sys2Proof.Machine.execCommitCompletion found s
  | .secondTick found => Sys2Proof.Machine.execSecondTick found s
  | .minuteChange tick => Sys2Proof.Machine.execMinuteChange tick s
  | .supervisionExpiry => Sys2Proof.Machine.execSupervisionExpiry s
  | .replyFrame frame cut => Sys2Proof.Machine.execReplyFrame frame cut s
  | .frameSent => Sys2Proof.Machine.execFrameSent s
  | .replyTimerExpiry address => Sys2Proof.Machine.execReplyTimerExpiry address s
  | .probeTimerExpiry address => Sys2Proof.Machine.execProbeTimerExpiry address s
  | .arbiterChoice carrier => Sys2Proof.Machine.execArbiterChoice carrier s
  | .resend carrier => Sys2Proof.Machine.execResend carrier s
  | .clearFrame carrier => Sys2Proof.Machine.execClearFrame carrier s

end Sys2Proof.Machine
end

