-- ==== Sys2Proof/Machine/Tick.lean ====
section
/-! DEFINITION. One millisecond of the time base (00 section 6.2), which a step on an empty queue takes (log 2): every running timer
counts down. No timer expires by it: an expiry is a command of its own (log 3). -/

namespace Sys2Proof.Machine

def Sample.tick (m : Sample) : Sample := { m with watch := m.watch.tick }

def Seq.tick (r : Seq) : Seq :=
  { r with
    tripFail := r.tripFail.tick
    closeFail := r.closeFail.tick
    dead := r.dead.tick
    reclaim := r.reclaim.tick
    window := r.window.tick }

def Hunt.tick (h : Hunt) : Hunt := { h with hold := h.hold.tick }

def Order.tick (o : Order) : Order := { o with timer := o.timer.tick }

def Device.tick (d : Device) : Device := { d with inFlight := d.inFlight.map Order.tick, probe := d.probe.tick }

def Link.tick (l : Link) : Link := { l with devices := l.devices.mapAll (fun _ d => d.tick) }

def Attention.tick (a : Attention) : Attention := { a with timer := a.timer.tick }

/-- One millisecond passes. -/
def State.tick (s : State) : State :=
  { s with
    sample := s.sample.map Sample.tick
    seq := s.seq.map Seq.tick
    hunts := s.hunts.map (Option.map Hunt.tick)
    link := s.link.tick
    att := s.att.tick }

end Sys2Proof.Machine
end

