-- ==== Sys2Proof/Safety.lean ====
section
/-! DEFINITION. What counts as a sound state of the part: the bounds and bonds that the chapters lay down for every state. -/

namespace Sys2Proof.Machine

/-- The attention line is asserted exactly when some pending notice's level exceeds the mask level (10 R188). -/
def State.lineSound (s : State) : Bool := decide (s.att.line = s.att.wantsLine)

/-- The backup trip line is asserted exactly while some feeder is in BREAKER_FAIL (03 R47). -/
def State.backupSound (s : State) : Bool := decide (s.backup = anyFailed s.seq)

/-- The pending notices stand in strictly ascending order of kind and then scope, so that no two are of one kind and scope (10 R187,
R189). -/
def Attention.ordered (a : Attention) : Bool := decide ((a.notices.map Notice.key).Pairwise (· < ·))

/-- The pending set of the part is in order (10 R187). -/
def State.noticesSound (s : State) : Bool := s.att.ordered

/-- At most 48 tags, no two with the same number (04 R69). -/
def State.tagsSound (s : State) : Bool := decide (s.tags.length ≤ tagCapacity ∧ (s.tags.map (·.number)).Nodup)

/-- The device records stand in strictly ascending order of address, one for each (09 R164), and never more orders are in flight
than the outstanding limit, which is at most 4 (09 R170, R171). -/
def State.ordersSound (s : State) : Bool :=
  s.link.devices.sorted && decide (inFlightCount s.link.devices ≤ s.link.limit ∧ s.link.limit ≤ 4)

/-- Every Feeder Condition record is the one that a derivation would work out now (06 R122). -/
def State.condSound (s : State) : Bool := Ix4.all.all (fun f => decide (s.cond.get f = s.conditionOf f))

/-- Every inverse-time running sum lies in 0 to 1,000,000 and every interval count in 0 to 6000 (01 R15, R18). -/
def State.sumsSound (s : State) : Bool :=
  Ix4.all.all (fun f => Element.all.all (fun e =>
    decide (((s.engine.get f).elements.get e).progress ≤ if e.inverse then fullSum else fullCount)))

/-- A hunt is in a non-final state exactly while its feeder is in HUNT (03 R64). -/
def State.huntsSound (s : State) : Bool := Ix4.all.all (fun f => decide (s.huntRuns f = (s.seq.get f).state.hunting))

/-- The shot count of every VALID group, and of a group whose commit is in flight, is at most 4 (02 R27). -/
def Store.shotsSound (t : Store) : Bool :=
  Ix4.all.all (fun f => Ix4.all.all (fun g =>
    (((t.groups.get f).get g).validContent.map (fun c => decide (c.shotCount ≤ 4))).getD true))
  && match t.staging with
    | .committing (.group _ _ c) => decide (c.shotCount ≤ 4)
    | .closed | .opened _ | .committing _ => true

/-- No shot counter exceeds 4, and no shot count that the store holds or is about to hold does (03 R54, 02 R27). -/
def State.shotsSound (s : State) : Bool :=
  s.store.shotsSound && Ix4.all.all (fun f => decide ((s.seq.get f).shots ≤ 4))

end Sys2Proof.Machine
end

