-- ==== Sys2Proof/Certificates/Slice0/Obligations.lean ====
section
/-! DEFINITION. The statements for the provers, each a Prop that says what a rule of spec/ or the model's log says. -/

open Sys2Proof Sys2Proof.Machine

/-! ## The step and the commands as a whole -/

/-- A step takes the command at the front of the queue and executes it on the state with the rest of the queue (log 1). -/
def Obligations.StepRunsTheFrontCommand : Prop :=
  ∀ (i : Instr) (rest : List Instr) (s : State), s.pending = i :: rest → step s = exec i { s with pending := rest }

/-- A step on an empty queue is one millisecond of the time base (00 section 6.2; that a step stands for it is the model's choice,
log 2): every running timer counts down, and nothing else changes. -/
def Obligations.IdleStepIsOneMillisecond : Prop :=
  ∀ s : State, s.pending = [] → step s = .next { s with
    sample := s.sample.map (fun m => { m with watch := m.watch.map (fun n => n - 1) })
    seq := s.seq.map (fun r => { r with
      tripFail := r.tripFail.map (fun n => n - 1)
      closeFail := r.closeFail.map (fun n => n - 1)
      dead := r.dead.map (fun n => n - 1)
      reclaim := r.reclaim.map (fun n => n - 1)
      window := r.window.map (fun n => n - 1) })
    hunts := s.hunts.map (fun h => h.map (fun h => { h with hold := h.hold.map (fun n => n - 1) }))
    link := { s.link with devices := s.link.devices.map (fun p => (p.1, { p.2 with
      inFlight := p.2.inFlight.map (fun o => { o with timer := o.timer.map (fun n => n - 1) })
      probe := p.2.probe.map (fun n => n - 1) })) }
    att := { s.att with timer := s.att.timer.map (fun n => n - 1) } }

/-- No rule of the manual stops the part (log 32), and no command touches the queue (log 1): every command, well formed or not, ends in
a next state from every state, with what waits in its order. -/
def Obligations.CommandsEndAndKeepTheQueue : Prop := ∀ (i : Instr) (s : State), ∃ t, exec i s = .next t ∧ t.pending = s.pending

/-- What the port takes a transaction to be (11 R197, R199, R200). The frame of every well-formed host command, whatever bytes follow it
in its transaction, is taken as that command, its payload byte for byte. A transaction of no complete byte is the empty one, and no other
is. A frame without a length byte, with one above 60, with fewer than L + 4 bytes in its transaction, or whose CRC-16 fails, is a frame
error with the first byte as its code. A good frame whose code is 63 or above names no command. How the fields of a payload are laid out
in those bytes is no part of it: that SET_CALENDAR carries its weekday after the calendar time, that AMEND_TAG carries its changes as
optional fields (log 16) and that PERPETUAL is the repeat byte 255 (log 17) is said by the statements of those commands. -/
def Obligations.CommandFramesReadBack : Prop :=
  (∀ (i : Instr) (bytes extra : List Byte) (carrier : Bool), i.wellFormed = true → i.transaction = some bytes →
    (∀ p c, i = .readLink p c → carrier = c) → Instr.ofTransaction (bytes ++ extra) carrier = i)
  ∧ (∀ (bytes : List Byte) (carrier : Bool), Instr.ofTransaction bytes carrier = .emptyTransaction ↔ bytes = [])
  ∧ (∀ (code : Byte) (carrier : Bool), Instr.ofTransaction [code] carrier = .frameError code)
  ∧ (∀ (code l : Byte) (rest : List Byte) (carrier : Bool), (60 < l.toNat ∨ rest.length < l.toNat + 2) →
    Instr.ofTransaction (code :: l :: rest) carrier = .frameError code)
  ∧ ∀ (code l a b : Byte) (p extra : List Byte) (carrier : Bool), l.toNat ≤ 60 → p.length = l.toNat →
    ([a, b] ≠ wordBytes (crc16 (code :: l :: p)) →
      Instr.ofTransaction (code :: l :: (p ++ [a, b] ++ extra)) carrier = .frameError code)
    ∧ ([a, b] = wordBytes (crc16 (code :: l :: p)) → 63 ≤ code.toNat →
      Instr.ofTransaction (code :: l :: (p ++ [a, b] ++ extra)) carrier = .unknownCommand code)

/-! ## What every step keeps -/

/-- After every step from a state in which it is so, the attention line is asserted exactly while some pending notice's level exceeds the
mask level (10 section 10.2), and the backup trip line exactly while some feeder is in BREAKER_FAIL (03 section 3.1): each of the two
alone. -/
def Obligations.LinesFollowNoticesAndFailures : Prop :=
  ∀ s t : State, step s = .next t →
    (s.lineSound = true → t.lineSound = true) ∧ (s.backupSound = true → t.backupSound = true)

/-- Every Feeder Condition record is the one that a derivation would work out (06 section 6.5), after every step from a state in which
it is so and in which no two tags bear one number. -/
def Obligations.ConditionsStayDerived : Prop :=
  ∀ s t : State, s.tagsSound = true → s.condSound = true → step s = .next t → t.condSound = true

/-- After every step from a state in which it is so: at most 48 tags and no two with one number (04 section 4.1); the device records
in ascending order of address, with no more orders in flight than the outstanding limit, itself at most 4 (09 sections 9.1 and 9.3); and
the pending notices in ascending order of kind and scope, so that no two are of one kind and scope (10 section 10.1; that the set is an
ordered list is the model's): each of the three alone. -/
def Obligations.TablesStaySound : Prop :=
  ∀ s t : State, step s = .next t →
    (s.tagsSound = true → t.tagsSound = true) ∧ (s.ordersSound = true → t.ordersSound = true)
    ∧ (s.noticesSound = true → t.noticesSound = true)

/-- Every running sum within 1,000,000 and every interval count within 6000 (01 section 1.3), after every step that began so. -/
def Obligations.SumsStayWithinBounds : Prop :=
  ∀ s t : State, s.sumsSound = true → step s = .next t → t.sumsSound = true

/-- A hunt is in a non-final state exactly while its feeder is in HUNT (03 section 3.8), after every step that began so. -/
def Obligations.HuntsRunWhileInHunt : Prop :=
  ∀ s t : State, s.huntsSound = true → step s = .next t → t.huntsSound = true

/-- No shot counter exceeds 4 (03 section 3.4): after every step from a state in which it is so and in which every shot count that
the store holds or is about to hold lies in 0 to 4, both are so again. -/
def Obligations.ShotsNeverExceedFour : Prop :=
  ∀ s t : State, s.shotsSound = true → step s = .next t → t.shotsSound = true

/-- Each of these holds right after reset. -/
def Obligations.ResetStateIsSound : Prop :=
  State.reset.lineSound = true ∧ State.reset.backupSound = true ∧ State.reset.condSound = true
    ∧ State.reset.tagsSound = true ∧ State.reset.ordersSound = true ∧ State.reset.noticesSound = true ∧ State.reset.sumsSound = true
    ∧ State.reset.huntsSound = true ∧ State.reset.shotsSound = true

/-- No close is issued on a feeder that a NO_CLOSE tag, live or frozen, names (03 section 3.8): a command of a state whose Feeder
Condition records are as derived leaves no close drive newly asserted there. -/
def Obligations.NoCloseUnderANoCloseTag : Prop :=
  ∀ (i : Instr) (s t : State) (f : Feeder), s.condSound = true → exec i s = .next t →
    (s.seq.get f).closeDrive = false → t.tagged f .noClose = true → (t.seq.get f).closeDrive = false

/-- The fallback latch is cleared by a warm or cold reset and by nothing else (10 section 10.3): the command that clears it is a
reset, or the transaction, one that is not empty, that performs a pending RESET_PART (11 section 11.4). -/
def Obligations.LatchLeavesOnlyByReset : Prop :=
  ∀ (i : Instr) (s t : State), s.latch = true → exec i s = .next t → t.latch = false →
    (∃ pins, i = .coldReset pins) ∨ (∃ pins, i = .warmReset .pin pins)
      ∨ (s.port.phase = .resetPending ∧ (i.frame.isSome = true ∨ (∃ b, i = .frameError b) ∨ (∃ c, i = .unknownCommand c)
        ∨ ∃ pins, i = .warmReset .transaction pins))

/-! ## The Command Port and the resets (11) -/

/-- COLD_RESET ends in a next state from every state: the part after a cold reset, field by field, with the position contacts, the
carrier detect line and the select line as they stand (00 section 6.4 and the sections on resets of each chapter). The queue is the
model's own and stays; State.reset is this with every breaker open, no carrier, no transaction and nothing waiting (the pins at
power-on are the model's choice, logs 5 and 6). -/
def Obligations.ColdResetLeaves : Prop :=
  (∀ (pins : Pins) (s : State), exec (.coldReset pins) s = .next {
    pending := s.pending
    contacts := pins.contacts
    backup := false
    sample := Four.fill ⟨.lost, none, 0, none, 50⟩
    engine := Four.fill ⟨Five.fill ⟨false, 0, false, none⟩, none⟩
    store := ⟨Four.fill (Four.fill .empty), Four.fill .empty, Four.fill .empty, .closed, 1⟩
    seq := pins.contacts.map (fun c => {
      state := if c.decode = .closed then .closed else .lockout .coldReset
      shots := 0
      tripElement := none
      tripFail := none
      closeFail := none
      dead := none
      reclaim := none
      window := none
      tripDrive := false
      closeDrive := false
      position := c.decode
      huntTest := false })
    tags := []
    cal := {
      clock := none
      trim := 0
      prescaler := 0
      secondLength := 32768
      windows := Four.fill none
      active := Four.fill false
      floors := ⟨0, 0⟩
      declarations := ⟨none, none⟩
      levels := ⟨0, 0⟩
      schedule := [] }
    inputs := Four.fill { forced := none, hostBlock := false, restorePending := true, measLost := false }
    latch := false
    cond := Four.fill {
      level := 5
      group := none
      source := .safeSubstitute
      causes := {
        tagNoReclose := false
        tagNoClose := false
        seasonReclose := true
        seasonHunt := true
        measLost := false
        fallback := false
        restorePending := true
        hostBlock := false }
      workMode := false
      wish := true
      exclusion := .sections [] }
    sections := Four.fill []
    hunts := Four.fill none
    link := {
      devices := []
      sending := none
      carrier := pins.carrier
      clearWaits := true
      resends := []
      limit := 2
      tagCounter := 0
      lastChosen := Four.fill none }
    att := {
      notices := []
      mask := 0
      levels := ⟨7, 7, 6, 6, 6, 5, 5, 4, 4, 3, 3, 3, 2⟩
      line := false
      period := 0
      action := .alert
      timer := none
      expiries := 0 }
    port := {
      buffer := ⟨.ok, 2#8, [0#8, 0#8, 0#8]⟩
      kind := .cold
      warmCount := 0
      marker := 0#8
      phase := if pins.selected then .cut else .ready } })
  ∧ exec (.coldReset ⟨Four.fill ⟨false, true⟩, false, false, 0⟩) State.reset = .next State.reset

/-- What a warm reset by the nWARM pin keeps and what it sets, block by block (00 section 6.4 and the sections on resets of each
chapter). The calendar keeps time over the second ticks that fall while the reset is applied, and hands on no minute change: at the end
it evaluates the windows and clears the declarations reached, the entries that match the current minute fire if a minute change fell,
the levels follow, and the LIVE tags whose expiry is reached leave. Every RECLOSER's desired block is set from its feeder's wish, and
the devices of a hunt that ran return to the host. The position contacts, the carrier, the select line and the ticks are what the pins
bring (the model's choice, logs 5, 6, 9 and 31); a year wrap among the ticks is log 28, and an order in flight that is not for a
position leaves the desired position (log 46). -/
def Obligations.WarmResetByPinLeaves : Prop :=
  (∀ (pins : Pins) (s : State) (c : Calendar) (d : Option Carry), (c, d) = Calendar.keepTime pins.ticks s.cal →
    ∃ t, exec (.warmReset .pin pins) s = .next t
    ∧ t.pending = s.pending ∧ t.contacts = pins.contacts ∧ t.backup = false
    ∧ t.sample = Four.fill ⟨.lost, none, 0, none, 50⟩
    ∧ t.engine = Four.fill ⟨Five.fill ⟨false, 0, false, none⟩, none⟩
    ∧ t.store = { s.store with staging := .closed, scrub := 1 }
    ∧ (∀ f, t.seq.get f = {
        state := if (pins.contacts.get f).decode = .closed then .closed else .lockout .warmReset
        shots := 0
        tripElement := none
        tripFail := none
        closeFail := none
        dead := none
        reclaim := none
        window := none
        tripDrive := false
        closeDrive := false
        position := (pins.contacts.get f).decode
        huntTest := false })
    ∧ (c.clock = none → t.tags = s.tags ∧ t.cal = c)
    ∧ (∀ k, c.clock = some k →
        t.tags = s.tags.filter (fun x => x.frozen || !((x.expiry.map (fun e => e.le k.minute)).getD false))
        ∧ ∃ x : Pair (Option Declaration),
          (∀ y, x.get y = match s.cal.declarations.get y with
            | some ⟨l, some u⟩ =>
              if (d.map (·.yearWrap)).getD false = true ∨ u.le k.minute = true then none else some ⟨l, some u⟩
            | other => other)
          ∧ t.cal = { c with
            active := Four.build (fun i => match s.cal.windows.get i with
              | some w => w.enabled && w.covers k.minute.year k.minute.month k.minute.day
              | none => false)
            floors := ⟨t.cal.floorOf .a, t.cal.floorOf .b⟩
            declarations := if d = none then x else (fire k.minute k.weekday s.cal.schedule x).2
            schedule := if d = none then s.cal.schedule else (fire k.minute k.weekday s.cal.schedule x).1
            levels := ⟨max (t.cal.floorOf .a) ((t.cal.declarations.a.map (·.level)).getD 0),
              max (t.cal.floorOf .b) ((t.cal.declarations.b.map (·.level)).getD 0)⟩ })
    ∧ t.latch = false
    ∧ (∀ f, t.inputs.get f = { s.inputs.get f with measLost := false })
    ∧ (∀ f, t.cond.get f = t.conditionOf f)
    ∧ t.sections = s.sections
    ∧ (∀ f, t.hunts.get f = match s.hunts.get f with
        | none => none
        | some h => some (if h.phase.final then h else
          { h with phase := .abandoned .reset, detail := none, hold := none, current := none, named := [] }))
    ∧ t.link.sending = none ∧ t.link.carrier = pins.carrier ∧ t.link.clearWaits = true ∧ t.link.resends = []
    ∧ t.link.limit = s.link.limit ∧ t.link.tagCounter = s.link.tagCounter ∧ t.link.lastChosen = s.link.lastChosen
    ∧ t.link.devices = s.link.devices.map (fun p => (p.1, {
        feeder := p.2.feeder
        kind := p.2.kind
        relay := p.2.relay
        desired := if p.2.owner = .hunt ∧ s.huntRuns p.2.feeder = true then
            if (p.2.inFlight.map (fun o => o.code.position)).getD false = true then none else p.2.ack
          else p.2.desired
        owner := if p.2.owner = .hunt ∧ s.huntRuns p.2.feeder = true then .host else p.2.owner
        ack := none
        desiredBlock := if p.2.kind = .recloser then some (if (t.cond.get p.2.feeder).wish then .blocked else .unblocked)
          else p.2.desiredBlock
        ackBlock := none
        posHeld := false
        blockHeld := false
        inFlight := none
        lastTag := none
        reach := .reachable
        probe := none
        probeDue := false }))
    ∧ t.att.mask = 0 ∧ t.att.levels = s.att.levels ∧ t.att.period = s.att.period ∧ t.att.action = s.att.action
    ∧ t.att.expiries = 0 ∧ t.att.timer = (if s.att.period = 0 then none else some (s.att.period * 1000))
    ∧ (∀ n ∈ t.att.notices, n.detail.kind = .levelChange ∨ n.detail.kind = .tagExpired)
    ∧ t.port = {
        buffer := ⟨.ok, 2#8, [1#8, byte (min 255 (s.port.warmCount + 1)), s.port.marker]⟩
        kind := .warmPin
        warmCount := min 255 (s.port.warmCount + 1)
        marker := s.port.marker
        phase := if pins.selected then .cut else .ready })
  ∧ (∀ (n : Nat) (c : Calendar),
    (Calendar.keepTime n c).1 = Nat.repeat (fun c => c.tick.1) n c
    ∧ ((Calendar.keepTime n c).2.isSome = true ↔ ∃ m < n, (Nat.repeat (fun c => c.tick.1) m c).tick.2.isSome = true)
    ∧ (((Calendar.keepTime n c).2.map (·.yearWrap)).getD false = true ↔
      ∃ m < n, ((Nat.repeat (fun c => c.tick.1) m c).tick.2.map (·.yearWrap)).getD false = true))

/-- RESET_PART pending (11 section 11.4): the end of the next transaction that is not empty performs the warm reset, whatever it
carries, and its frame is not executed; an empty transaction changes nothing. A transaction that a reset cut short is neither judged nor
executed at its end, and shifts nothing out: the port waits for nCS to be high, which any end of a transaction shows, and is then ready.
The position contacts are those last taken and the carrier that the link last had, or that READ_LINK brings, and the row that ends a
transaction is the rise of nCS (the model's choice, logs 6, 11 and 31). -/
def Obligations.PendingResetTakesTheNextTransaction : Prop :=
  (∀ (i : Instr) (s : State), s.port.phase = .resetPending →
    (i.frame.isSome = true ∨ (∃ b, i = .frameError b) ∨ (∃ c, i = .unknownCommand c)) → (∀ p c, i ≠ .readLink p c) →
    exec i s = .next (s.warmReset .warmCommand ⟨s.contacts, s.link.carrier, false, 0⟩))
  ∧ (∀ (p : Payload) (c : Bool) (s : State), s.port.phase = .resetPending →
    exec (.readLink p c) s = .next ((s.senseCarrier c).warmReset .warmCommand ⟨s.contacts, c, false, 0⟩))
  ∧ (∀ (pins : Pins) (s : State), s.port.phase = .resetPending →
    exec (.warmReset .transaction pins) s = .next (s.warmReset .warmCommand pins))
  ∧ (∀ (pins : Pins) (s : State), s.port.phase ≠ .resetPending → exec (.warmReset .transaction pins) s = .next s)
  ∧ (∀ s : State, s.port.phase ≠ .cut → exec .emptyTransaction s = .next s
    ∧ ∀ n, s.shiftOut n = some ((s.port.buffer.frame[n]?).getD 0#8))
  ∧ (∀ s : State, s.port.phase = .cut →
    (∀ n, s.shiftOut n = none)
    ∧ exec .emptyTransaction s = .next { s with port := { s.port with phase := .ready } }
    ∧ (∀ i : Instr, (i.frame.isSome = true ∨ (∃ b, i = .frameError b) ∨ (∃ c, i = .unknownCommand c)) →
      (∀ p c, i ≠ .readLink p c) → exec i s = .next { s with port := { s.port with phase := .ready } })
    ∧ ∀ p c, exec (.readLink p c) s = .next { s.senseCarrier c with port := { s.port with phase := .ready } })

/-- With no reset pending: RESET_PART is answered OK and makes one pending; a frame in error changes nothing but the response buffer
and does not restart supervision; an unknown code restarts supervision and is answered so (11 sections 11.2 to 11.4). READ_START_REASON
gives the kind, the warm reset count and the marker, in that order; WRITE_MARKER replaces the marker and gives it; no other command
changes the marker but a cold reset, which ends in a next state from every state, clears the marker and the count, and sets the kind COLD
(11 section 11.4). -/
def Obligations.PortCommandsAnswer : Prop :=
  (∀ s : State, s.port.phase = .ready →
    exec (.resetPart []) s = .next { s.restartSupervision with
      port := { s.port with buffer := ⟨.ok, 1#8, []⟩, phase := .resetPending } }
    ∧ (∀ first, exec (.frameError first) s = .next { s with port := { s.port with buffer := ⟨.frameError, first, []⟩ } })
    ∧ (∀ code, exec (.unknownCommand code) s = .next { s.restartSupervision with
      port := { s.port with buffer := ⟨.unknownCommand, code, []⟩ } }))
  ∧ (∀ s : State, s.port.phase = .ready → exec (.readStartReason []) s = .next (s.restartSupervision.answer 2#8
    ⟨.ok, [byte (match s.port.kind with | .cold => 0 | .warmPin => 1 | .warmCommand => 2), byte s.port.warmCount,
      s.port.marker]⟩))
  ∧ (∀ (s : State) (b : Byte), s.port.phase = .ready → exec (.writeMarker [b]) s = .next { s.restartSupervision with
    port := { s.port with marker := b, buffer := ⟨.ok, 3#8, [b]⟩ } })
  ∧ (∀ (i : Instr) (s t : State), exec i s = .next t → (∀ p, i ≠ .writeMarker p) → (∀ pins, i ≠ .coldReset pins) →
    t.port.marker = s.port.marker)
  ∧ (∀ (s : State) (pins : Pins), ∃ t, exec (.coldReset pins) s = .next t
    ∧ t.port.marker = 0#8 ∧ t.port.kind = .cold ∧ t.port.warmCount = 0)

/-- A NOP (11 R202): with no payload it restarts supervision and leaves the response buffer as it stood; with a payload it is answered
BAD_FIELD; not a good frame, it is answered FRAME_ERROR; with a RESET_PART pending it performs the reset and is not executed. That
reset reads the contacts last taken and the carrier last sensed, with nCS high and no second passing, which is the model's choice
(logs 6 and 11). -/
def Obligations.NopLeavesTheBuffer : Prop :=
  ∀ s : State,
    (s.port.phase = .ready → exec (.nop []) s = .next { s with
        att := { s.att with timer := if s.att.period = 0 then none else some (s.att.period * 1000), expiries := 0 } }
      ∧ (∀ b p, exec (.nop (b :: p)) s = .next { s with
        att := { s.att with timer := if s.att.period = 0 then none else some (s.att.period * 1000), expiries := 0 }
        port := { s.port with buffer := ⟨.badField, 0#8, []⟩ } })
      ∧ exec (.frameError 0#8) s = .next { s with port := { s.port with buffer := ⟨.frameError, 0#8, []⟩ } })
    ∧ (s.port.phase = .resetPending → ∀ p, exec (.nop p) s = .next (s.warmReset .warmCommand ⟨s.contacts, s.link.carrier, false, 0⟩))

/-! ## Refusals -/

/-- A refused command takes no action (11 section 11.3): where the response of a host command, other than a NOP that leaves the buffer
and a bad attempt counted by AMEND_TAG or RELEASE_TAG, carries a status other than OK, nothing has changed but supervision and the
response; READ_LINK alone senses the carrier, which is then its operand (log 6). The response echoes the command's code. -/
def Obligations.RefusalChangesNothingElse : Prop :=
  ∀ (i : Instr) (code : Nat) (p : Payload) (s t : State), i.frame = some (code, p) → s.port.phase = .ready →
    exec i s = .next t → t.port.buffer.status ≠ .ok → i ≠ .nop [] →
    ((code = 20 ∨ code = 21) → t.port.buffer.status ≠ .notHolder) →
    t.port.buffer.code = byte code
    ∧ (∀ c, i = .readLink p c → t.link.carrier = c) ∧ ((∀ c, i ≠ .readLink p c) → t.link.carrier = s.link.carrier)
    ∧ t = { s.restartSupervision with
        link := { s.link with carrier := t.link.carrier }
        port := { s.port with buffer := t.port.buffer } }

/-- A payload that is short or long is answered BAD_FIELD with no field named (11 section 11.3), for every command whose payload has one
length: that length stands beside the command's code, as the widths of its fields give it (11 section 11.5). A feeder outside 1 to 4 is
refused BAD_FIELD, by every command whose payload begins with one that it names (01 section 1.6, 02 sections 2.3 and 2.6, 03 section 3.7,
06 sections 6.2 and 6.5, 07 sections 7.2 and 7.3, 08 sections 8.3 and 8.9, 09 section 9.2); the feeder of CLEAR_BREAKER_FAIL (03 section
3.3) is a field out of range like any other (11 section 11.5). READ_LINK senses the carrier all the same (log 6). -/
def Obligations.MisshapenCommandsAreBadField : Prop :=
  (∀ (i : Instr) (code : Nat) (p : Payload) (s : State) (n : Nat), i.frame = some (code, p) → s.port.phase = .ready →
    (code, n) ∈ [(0, 0), (1, 0), (2, 0), (3, 1), (4, 1), (6, 6), (7, 0), (8, 0), (9, 0), (10, 2), (11, 1), (12, 1), (13, 0),
      (14, 1), (15, 1), (16, 1), (17, 2), (18, 1), (21, 5), (22, 5), (23, 2), (25, 0), (26, 7), (27, 0), (28, 1), (29, 8),
      (30, 1), (31, 1), (33, 1), (35, 1), (36, 1), (37, 2), (38, 0), (39, 2), (40, 1), (42, 2), (43, 2), (44, 1), (46, 1),
      (47, 1), (48, 1), (49, 1), (51, 1), (52, 1), (54, 2), (55, 1), (56, 0), (58, 2), (59, 1), (60, 0), (61, 0), (62, 2)] →
    p.length ≠ n → exec i s = .next (s.restartSupervision.answer (byte code) ⟨.badField, []⟩))
  ∧ (∀ (p : Payload) (c : Bool) (s : State), s.port.phase = .ready → p ≠ [] →
    exec (.readLink p c) s = .next ((s.senseCarrier c).restartSupervision.answer 57#8 ⟨.badField, []⟩))
  ∧ (∀ (s : State) (b c : Byte), s.port.phase = .ready → (b.toNat = 0 ∨ 4 < b.toNat) →
    (∀ i ∈ [Instr.readElements [b], .closeBreaker [b], .openBreaker [b], .clearBreakerFail [b], .setHostBlock [b, c],
        .readFeeder [b], .selectGroup [b, c], .readCondition [b], .deleteSection [b, c], .readSection [b, c],
        .listSections [b], .locate [b, 0#8], .startHunt [b], .abandonHunt [b], .readHunt [b], .dismissHunt [b],
        .listDevices [1#8, b]],
      ∀ code p, i.frame = some (code, p) → exec i s = .next (s.restartSupervision.answer (byte code) ⟨.badField, []⟩))
    ∧ ((∀ d, s.store.staging ≠ .committing d) →
      ∀ i ∈ [Instr.readGroup [b, c], .readConstants [b], .openStaging [2#8, b]],
        ∀ code p, i.frame = some (code, p) → (∀ d, i = .openStaging [2#8, b] → s.store.staging ≠ .opened d) →
          exec i s = .next (s.restartSupervision.answer (byte code) ⟨.badField, []⟩)))

/-- While a commit is in flight five commands are answered BUSY before their own fields are judged (11 section 11.3, 02 section 2.4),
and WRITE_STAGED and DISCARD_STAGING are refused WRONG_STATE (02 section 2.3). An OPEN_STAGING whose kind byte names no kind is one of
them, whatever follows that byte (the model's choice, log 44). -/
def Obligations.BusyWhileACommitIsInFlight : Prop :=
  ∀ (s : State) (d : Draft) (a b f : Byte) (v : Nat), s.port.phase = .ready → s.store.staging = .committing d →
    (∀ i ∈ [Instr.openStaging [0#8, a, b], .openStaging [1#8, a], .openStaging [2#8, a], .commitStaging [], .readGroup [a, b],
        .readCurve [a], .readConstants [a]],
      ∀ code p, i.frame = some (code, p) → exec i s = .next (s.restartSupervision.answer (byte code) ⟨.busy, []⟩))
    ∧ (∀ (k : Byte) (rest : List Byte), 2 < k.toNat →
      exec (.openStaging (k :: rest)) s = .next (s.restartSupervision.answer 5#8 ⟨.busy, []⟩))
    ∧ exec (.writeStaged ([a, f] ++ be4 v)) s = .next (s.restartSupervision.answer 6#8 ⟨.wrongState, []⟩)
    ∧ exec (.discardStaging []) s = .next (s.restartSupervision.answer 8#8 ⟨.wrongState, []⟩)

/-! ## Commands that read -/

/-- The reading commands of the Element Engine, the store and the Sequencer answer OK with the record read, laid out as log 14 has it,
and change nothing but supervision; a group or a curve number out of range is refused BAD_FIELD (01 section 1.6, 02 sections 2.3 and 2.6,
03 section 3.7). -/
def Obligations.ProtectionReadsAnswer : Prop :=
  ∀ (s : State) (f : Feeder) (g : GroupNo) (n : CurveNo), s.port.phase = .ready →
    exec (.readElements [byte f.num]) s = .next (s.restartSupervision.answer 4#8
      (ok (elementsBytes (s.sample.get f) (s.engine.get f).elements)))
    ∧ exec (.readStaging []) s = .next (s.restartSupervision.answer 7#8 (ok (stagingBytes s.store.staging)))
    ∧ exec (.readStoreStatus []) s = .next (s.restartSupervision.answer 13#8 (ok s.store.statusBytes))
    ∧ exec (.readFeeder [byte f.num]) s = .next (s.restartSupervision.answer 18#8
      (ok (feederBytes (s.seq.get f) s.backup (s.engine.get f).snapshot)))
    ∧ ((∀ d, s.store.staging ≠ .committing d) →
      exec (.readGroup [byte f.num, byte g.num]) s = .next (s.restartSupervision.answer 10#8
        (ok (storedBytes groupBytes ((s.store.groups.get f).get g))))
      ∧ exec (.readCurve [byte n.place]) s = .next (s.restartSupervision.answer 11#8
        (ok (storedBytes curveBytes (s.store.curves.get n))))
      ∧ exec (.readConstants [byte f.num]) s = .next (s.restartSupervision.answer 12#8
        (ok (storedBytes constantsBytes (s.store.constants.get f))))
      ∧ (∀ b c : Byte, (b.toNat = 0 ∨ 4 < b.toNat ∨ c.toNat = 0 ∨ 4 < c.toNat) →
        exec (.readGroup [b, c]) s = .next (s.restartSupervision.answer 10#8 (refuse .badField)))
      ∧ (∀ b : Byte, 3 < b.toNat → exec (.readCurve [b]) s = .next (s.restartSupervision.answer 11#8 (refuse .badField))))

/-- The reading commands of the Tag Table and the Season Calendar answer OK with the record read, laid out as log 14 has it, and
change nothing but supervision; a number or a slot that bears nothing is answered NOT_FOUND, and one out of range is refused BAD_FIELD,
as are a first place, a count and a feeder out of range in the two lists (04 section 4.7, 05 sections 5.3, 5.6 and 5.7). -/
def Obligations.TagAndCalendarReadsAnswer : Prop :=
  ∀ (s : State) (i : Ix4), s.port.phase = .ready →
    (∀ n, 1 ≤ n → n ≤ 65535 → exec (.readTag (be2 n)) s = .next (s.restartSupervision.answer 23#8
      (match s.findTag n with
        | some t => ok (tagBytes t (s.tagPosition n))
        | none => refuse .notFound)))
    ∧ exec (.readTag [0#8, 0#8]) s = .next (s.restartSupervision.answer 23#8 (refuse .badField))
    ∧ (∀ b c d : Byte,
      ((b.toNat = 0 ∨ 48 < b.toNat ∨ c.toNat = 0 ∨ 12 < c.toNat) →
        exec (.listTags [b, c, 0#8]) s = .next (s.restartSupervision.answer 24#8 (refuse .badField)))
      ∧ ((b.toNat = 0 ∨ 48 < b.toNat ∨ c.toNat = 0 ∨ 12 < c.toNat ∨ d.toNat = 0 ∨ 4 < d.toNat) →
        exec (.listTags [b, c, 1#8, d]) s = .next (s.restartSupervision.answer 24#8 (refuse .badField)))
      ∧ ((b.toNat = 0 ∨ 4 < b.toNat) →
        exec (.readWindow [b]) s = .next (s.restartSupervision.answer 31#8 (refuse .badField)))
      ∧ ((b.toNat = 0 ∨ 16 < b.toNat) →
        exec (.readEntry [b]) s = .next (s.restartSupervision.answer 36#8 (refuse .badField)))
      ∧ ((b.toNat = 0 ∨ 16 < b.toNat ∨ c.toNat = 0 ∨ 8 < c.toNat) →
        exec (.listEntries [b, c]) s = .next (s.restartSupervision.answer 37#8 (refuse .badField))))
    ∧ (∀ first count, 1 ≤ first → first ≤ 48 → 1 ≤ count → count ≤ 12 →
      exec (.listTags [byte first, byte count, 0#8]) s = .next (s.restartSupervision.answer 24#8
        (ok (listOf tagEntry ((s.tags.drop (first - 1)).take count) ++ be1 s.tags.length)))
      ∧ exec (.listTags [byte first, byte count, 1#8, byte i.num]) s = .next (s.restartSupervision.answer 24#8
        (ok (listOf tagEntry (((s.tags.filter (fun t => decide (t.feeder = i))).drop (first - 1)).take count)
          ++ be1 (s.tags.filter (fun t => decide (t.feeder = i))).length))))
    ∧ exec (.readCalendar []) s = .next (s.restartSupervision.answer 27#8 (ok (calendarBytes s.cal)))
    ∧ exec (.readWindow [byte i.num]) s = .next (s.restartSupervision.answer 31#8
      (ok (opt windowBytes (s.cal.windows.get i) ++ yes (s.cal.active.get i))))
    ∧ (∀ n, 1 ≤ n → n ≤ 16 → exec (.readEntry [byte n]) s = .next (s.restartSupervision.answer 36#8
      (match s.cal.schedule.find n with
        | some e => ok (entryBytes e)
        | none => refuse .notFound)))
    ∧ (∀ first count, 1 ≤ first → first ≤ 16 → 1 ≤ count → count ≤ 8 →
      exec (.listEntries [byte first, byte count]) s = .next (s.restartSupervision.answer 37#8
        (ok (listOf entryLine ((s.cal.schedule.filter (fun p => decide (first ≤ p.1))).take count)
          ++ be1 s.cal.schedule.length))))
    ∧ exec (.readLevels []) s = .next (s.restartSupervision.answer 38#8
      (ok (districtBytes s.cal .a ++ districtBytes s.cal .b ++ calendarState s.cal)))

/-- The reading commands of Permission Logic, the Section Map, the Pole Link (less READ_DEVICE) and the Attention Unit answer with the
record read, laid out as log 14 has it, and change nothing but supervision and, at READ_LINK, the carrier that it senses, which is its
operand (log 6); a section number out of range is refused BAD_FIELD. The reason of READ_SECTION is the first of hunt, tag and parent (log
42); READ_HUNT and READ_DEVICE stand in the statements of their chapters (06 section 6.5, 07 sections 7.2 and 7.3, 09 sections 9.2 and
9.6, 10 section 10.2). -/
def Obligations.ConditionMapAndLinkReadsAnswer : Prop :=
  ∀ (s : State) (f : Feeder), s.port.phase = .ready →
    exec (.readCondition [byte f.num]) s = .next (s.restartSupervision.answer 40#8
      (ok (conditionBytes (s.cond.get f) (s.inputs.get f) s.latch)))
    ∧ (∀ n, 1 ≤ n → n ≤ 16 → exec (.readSection [byte f.num, byte n]) s = .next (s.restartSupervision.answer 43#8
      (ok (opt (s.sectionReply f n) ((s.sections.get f).find n)))))
    ∧ (∀ b : Byte, (b.toNat = 0 ∨ 16 < b.toNat) →
      exec (.readSection [byte f.num, b]) s = .next (s.restartSupervision.answer 43#8 (refuse .badField)))
    ∧ exec (.listSections [byte f.num]) s = .next (s.restartSupervision.answer 44#8
      (ok (listOf (sectionLine (s.sections.get f)) (s.sections.get f))))
    ∧ exec (.locate [byte f.num, 0#8]) s = .next (s.restartSupervision.answer 45#8
      (ok (locateBytes (s.sections.get f) (makeLocation (s.constants f) ((s.engine.get f).snapshot.bind (·.distance))) false)))
    ∧ (∀ x, x ≤ 65000 → exec (.locate ([byte f.num, 1#8] ++ be2 x)) s = .next (s.restartSupervision.answer 45#8
      (ok (locateBytes (s.sections.get f)
        (makeLocation (s.constants f) ((s.constants f).map (fun k => min 120000 (x * 1000 / k.x1)))) true))))
    ∧ (∀ x, 65000 < x → x ≤ 65535 → exec (.locate ([byte f.num, 1#8] ++ be2 x)) s
      = .next (s.restartSupervision.answer 45#8 (refuse .badField)))
    ∧ exec (.listDevices [0#8]) s = .next (s.restartSupervision.answer 53#8 (ok (listOf deviceLine s.link.devices)))
    ∧ exec (.listDevices [1#8, byte f.num]) s = .next (s.restartSupervision.answer 53#8
      (ok (listOf deviceLine (s.link.devices.filter (fun p => decide (p.2.feeder = f))))))
    ∧ (∀ c, exec (.readLink [] c) s = .next ((s.senseCarrier c).restartSupervision.answer 57#8
      (ok (linkBytes { s.link with carrier := c }))))
    ∧ exec (.readAttention []) s = .next (s.restartSupervision.answer 61#8
      (ok (attentionBytes { s.att with timer := supervisionTimer s.att.period, expiries := 0 } s.latch)))

/-! ## Measurement and elements (01) -/

/-- The multiple of pickup (01 R10): q = floor(I × 64 / Is) with I the largest phase current for P1 and P2 and the residual current
for E1, E2 and S1, clamped to 2560; 64 is one times pickup, and the smallest pickups reach the clamp at 400 A and at an IR of 200. -/
def Obligations.MultipleOfPickup : Prop :=
  (∀ (p : Report) (x : Nat), 1 ≤ x →
    multiple (Element.p1.quantity p) x = min 2560 (max p.ia (max p.ib p.ic) * 64 / x)
    ∧ multiple (Element.p2.quantity p) x = min 2560 (max p.ia (max p.ib p.ic) * 64 / x)
    ∧ multiple (Element.e1.quantity p) x = min 2560 (p.ir * 64 / x)
    ∧ multiple (Element.e2.quantity p) x = min 2560 (p.ir * 64 / x)
    ∧ multiple (Element.s1.quantity p) x = min 2560 (p.ir * 64 / x))
  ∧ (∀ x, 1 ≤ x → multiple x x = 64 ∧ multiple (40 * x) x = 2560)
  ∧ (∀ i, multiple i 10 = 2560 ↔ 400 ≤ i)
  ∧ (∀ i, multiple i 5 = 2560 ↔ 200 ≤ i)

/-- The entry of a curve table that serves a multiple (01 R13): with the multiples strictly ascending from 64, the largest k for which
q_k is at most q, and the first one for a q of 61 to 63 below them all. -/
def Obligations.CurveEntryIsTheLargestAtMost : Prop :=
  ∀ (c : Curve) (q : Nat), 2 ≤ c.breakpoints.length → c.breakpoints.length ≤ 16 →
    c.breakpoints.Pairwise (fun a b => a.q < b.q) → (c.breakpoints.head?.map (·.q)) = some 64 → 61 ≤ q →
    ∃ (k : Nat) (b : Breakpoint), c.breakpoints[k]? = some b ∧ c.time q = b.t
      ∧ (64 ≤ q → b.q ≤ q) ∧ (q < 64 → k = 0)
      ∧ ∀ (l : Nat) (d : Breakpoint), c.breakpoints[l]? = some d → d.q ≤ q → l ≤ k

/-- The increment of a running sum (01 R14): inc = floor(10,000,000 / Tt) with Tt = max(10, floor(T × tm / 100)), which lies in 10 to
900,000 and falls short of the exact share by less than a millisecond; inc lies in 11 to 1,000,000, and an element held at one
multiple needs no fewer reports than Tt / 10. -/
def Obligations.IncrementOfTheSum : Prop :=
  ∀ T tm : Nat, 10 ≤ T → T ≤ 600000 → 5 ≤ tm → tm ≤ 150 →
    increment T tm = 10000000 / max 10 (T * tm / 100)
    ∧ 10 ≤ max 10 (T * tm / 100) ∧ max 10 (T * tm / 100) ≤ 900000
    ∧ T * tm < (max 10 (T * tm / 100) + 1) * 100
    ∧ 11 ≤ increment T tm ∧ increment T tm ≤ 1000000
    ∧ max 10 (T * tm / 100) ≤ (1000000 + increment T tm - 1) / increment T tm * 10

/-- The fall of a running sum on a dropped report of P1 or E1 (01 R16): to 0 at once with Tr = 0, else by floor(10,000,000 / Tr) and no
lower than 0; a Tr of 10 or less empties any sum, a sum of 0 stays, 60,000 takes 6025 reports from a full sum, and no dropped report
operates. -/
def Obligations.DecayOfTheSum : Prop :=
  (∀ (x : Setting) (p : Report) (r : ElementRecord), x.element.inverse = true → heldDropped x.settings x.shot = false →
    picksUp x.element x.settings p r.pickedUp = false →
    (evaluate x p r).2 = false ∧ (evaluate x p r).1.pickedUp = false
    ∧ (x.settings.resetTime = 0 → (evaluate x p r).1.progress = 0)
    ∧ (1 ≤ x.settings.resetTime → (evaluate x p r).1.progress = r.progress - 10000000 / x.settings.resetTime)
    ∧ (x.settings.resetTime ≤ 10 → r.progress ≤ 1000000 → (evaluate x p r).1.progress = 0)
    ∧ (1 ≤ x.settings.resetTime → x.settings.resetTime ≤ 10 → 1000000 ≤ 10000000 / x.settings.resetTime)
    ∧ (r.progress = 0 → (evaluate x p r).1.progress = 0))
  ∧ (∀ sum, decay sum 60000 = sum - 166)
  ∧ Nat.repeat (fun sum => decay sum 60000) 6025 1000000 = 0
  ∧ 0 < Nat.repeat (fun sum => decay sum 60000) 6024 1000000

/-- The evaluation of an element (01 sections 1.3 to 1.6): held dropped, it is cleared; dropped at 64 and picked up at 61 is the
threshold, with VR at least Vsup besides for S1; on a picked-up report the sum or the count rises to its limit and the element operates
as it reaches 1,000,000 from below, or once while its operated state is clear and ten times its count has reached the delay; a
definite-time element that is dropped is cleared. A picked-up report that may give its XE gives it, and else the taken XE keeps its
value since the pickup; an inverse-time element whose curve table is not VALID is held dropped and cleared at the report that looks the
table up (log 20). Of a feeder, the evaluation reads the settings of the active group, the shot counter, the VALID curve table that they
name, the delay or 0 under a modifier, and the conditions under which an XE is taken. -/
def Obligations.ElementEvaluation : Prop :=
  ∀ (x : Setting) (p : Report) (r : ElementRecord) (q : Nat) (up : Prop),
    q = multiple (x.element.quantity p) x.settings.pickup →
    (up ↔ (if r.pickedUp then 61 else 64) ≤ q ∧ (x.element = .s1 → x.settings.vsup ≤ p.vr)) →
    ((x.settings.enabled = false ∨ x.settings.shots.getLsbD x.shot = false) → evaluate x p r = (⟨false, 0, false, none⟩, false))
    ∧ (∀ (s : State) (e : Element) (y : ElementSettings), y = (s.activeGroup p.feeder).elements.get e → s.settingOf p e = {
        element := e
        settings := y
        shot := (s.seq.get p.feeder).shots
        curve := match s.store.curves.get y.curve with
          | .valid c _ => some c
          | _ => none
        delay := if (y.workFast = true ∧ (s.cond.get p.feeder).workMode = true)
            ∨ ((e = .p2 ∨ e = .e2) ∧ (s.seq.get p.feeder).ontoFault = true)
            ∨ ((e = .e2 ∨ e = .s1) ∧ (s.seq.get p.feeder).huntTest = true) then 0
          else y.delay
        takesXE := match s.constants p.feeder with
          | some k => decide (p.quality = .good ∧ p.xe ≠ none ∧ p.overRange = false ∧ k.locateThreshold ≤ p.ir)
          | none => false })
    ∧ (x.settings.enabled = true → x.settings.shots.getLsbD x.shot = true →
      (¬ up → (evaluate x p r).1.pickedUp = false ∧ (evaluate x p r).1.operated = false
        ∧ (evaluate x p r).1.takenXE = none ∧ (evaluate x p r).2 = false
        ∧ (x.element.inverse = false → (evaluate x p r).1.progress = 0))
      ∧ (up → (x.element.inverse = false ∨ x.curve ≠ none) →
        (evaluate x p r).1.takenXE = if x.takesXE = true then p.xe else if r.pickedUp = true then r.takenXE else none)
      ∧ (up → x.element.inverse = true → x.curve = none → evaluate x p r = (⟨false, 0, false, none⟩, false))
      ∧ (up → x.element.inverse = false →
        (evaluate x p r).1.pickedUp = true
        ∧ (evaluate x p r).1.progress = min 6000 (r.progress + 1)
        ∧ ((evaluate x p r).2 = true ↔ r.operated = false ∧ x.delay ≤ min 6000 (r.progress + 1) * 10)
        ∧ ((evaluate x p r).1.operated = true ↔ r.operated = true ∨ x.delay ≤ min 6000 (r.progress + 1) * 10))
      ∧ (∀ c, up → x.element.inverse = true → x.curve = some c →
        (evaluate x p r).1.pickedUp = true
        ∧ (evaluate x p r).1.progress = min 1000000 (r.progress + increment (c.time q) x.settings.tm)
        ∧ ((evaluate x p r).2 = true ↔
            r.progress < 1000000 ∧ 1000000 ≤ r.progress + increment (c.time q) x.settings.tm)
        ∧ ((evaluate x p r).1.operated = true ↔ r.operated = true ∨ (evaluate x p r).2 = true)))

/-- A sequencer record with every timer stopped and no hunt-test condition. -/
def Sys2Proof.stopped (r : Seq) : Seq :=
  { r with tripFail := none, closeFail := none, dead := none, reclaim := none, window := none, huntTest := false }

/-- The trip-fail time of a feeder: that of its constants, or 200 ms from the safe constants (03 section 3.2, 02 section 2.2). -/
def Sys2Proof.tripTime (s : State) (f : Feeder) : Nat :=
  match s.constants f with
  | some k => k.tripFailTime
  | none => 200

/-- The fifteen bytes of a report frame before its CRC-16 (11 section 11.5). -/
def Sys2Proof.reportContent (feeder sequence ia ib ic ir vr xe quality : Nat) : List Byte :=
  be1 feeder ++ be1 sequence ++ be2 ia ++ be2 ib ++ be2 ic ++ be2 ir ++ be2 vr ++ be2 xe ++ be1 quality

/-- A report frame is discarded when it was cut short, its length is not 17, its CRC-16 does not check or its feeder is outside 1 to
4, and a report that is INVALID or repeats the previous usable sequence is dropped: nothing changes (01 section 1.1). -/
def Obligations.UnusableReportsChangeNothing : Prop :=
  (∀ (frame : List Byte) (s : State), exec (.intervalReport frame true) s = .next s)
  ∧ (∀ (frame : List Byte) (cut : Bool) (s : State), frame.length ≠ 17 → exec (.intervalReport frame cut) s = .next s)
  ∧ (∀ (frame : List Byte) (cut : Bool) (s : State),
    frame.drop (frame.length - 2) ≠ wordBytes (crc16 (frame.take (frame.length - 2))) →
    exec (.intervalReport frame cut) s = .next s)
  ∧ (∀ (f n ia ib ic ir vr xe q : Nat) (s : State), (f = 0 ∨ 4 < f) → f < 256 →
    exec (.intervalReport (withCrc (reportContent f n ia ib ic ir vr xe q)) false) s = .next s)
  ∧ (∀ (f : Feeder) (n ia ib ic ir vr xe q : Nat) (s : State), n < 256 → q < 256 →
    (2 ≤ q ∨ (s.sample.get f).lastSequence = some n) →
    exec (.intervalReport (withCrc (reportContent f.num n ia ib ic ir vr xe q)) false) s = .next s)

/-- A usable report (01 sections 1.1 to 1.6): the feeder is VALID, its watch timer runs anew, its count is 0 and its run count has
risen; its five elements are evaluated on the clamped report; when none operates, nothing else changes; and those that operate are
handed on as one request, named in the order P2, P1, E2, E1, S1 (the others listed in that order too, log 39), of which the fault
snapshot, a TRIP notice and, with the breaker seen OPEN, a POSITION_ALARM tell, and which the Sequencer then takes. The 50th usable
report in a row of a feeder with the MEAS_LOST cause is the next statement's. What the Sequencer does with a trip request, by its state
(03 sections 3.3 and 3.8, 08 section 8.5): a trip of origin PROTECTION from CLOSED, RECLAIM, CLOSING and, where the breaker is not seen
OPEN, from DEAD_TIME and LOCKOUT, ended at once where it is (03 section 3.1); nothing in TRIPPING and BREAKER_FAIL; and in HUNT the
opening of the breaker, a test trip being told first, which marks the candidate under test FAULTED. The element named does not become a
trip element in HUNT (log 22). -/
def Obligations.UsableReportIsEvaluated : Prop :=
  (∀ (f : Feeder) (n ia ib ic ir vr xe q : Nat) (s : State) (p : Report) (found : Element → ElementRecord × Bool)
    (notices : Element → Attention) (taken : Element → List Element → Snapshot),
    n < 256 → ia < 65536 → ib < 65536 → ic < 65536 → ir < 65536 → vr < 65536 → xe < 65536 → q ≤ 1 →
    (s.sample.get f).lastSequence ≠ some n → ((s.sample.get f).runCount ≠ 49 ∨ (s.causes f).measLost = false) →
    p = {
      feeder := f
      sequence := n
      ia := min 40000 ia
      ib := min 40000 ib
      ic := min 40000 ic
      ir := min 20000 ir
      vr := min 2500 vr
      xe := if xe ≤ 65000 then some xe else none
      overRange := decide (40000 < ia ∨ 40000 < ib ∨ 40000 < ic ∨ 20000 < ir ∨ 2500 < vr)
      quality := if q = 0 then .good else .questionable } →
    (found = fun e => evaluate (s.settingOf p e) p ((s.engine.get f).elements.get e)) →
    (notices = fun e =>
      if (s.seq.get f).position = .opened then
        (s.att.give (.feeder f) (.trip e (s.seq.get f).shots)).give (.feeder f) (.positionAlarm (.element e))
      else s.att.give (.feeder f) (.trip e (s.seq.get f).shots)) →
    (taken = fun e others => {
      element := e
      others := others
      shot := (s.seq.get f).shots
      time := s.cal.clock.map (fun k => ⟨k.minute, k.second⟩)
      phaseCurrent := max p.ia (max p.ib p.ic)
      residual := p.ir
      overRange := p.overRange
      xe := (found e).1.takenXE
      distance := match (found e).1.takenXE, s.constants f with
        | some x, some k => some (min 120000 (x * 1000 / k.x1))
        | _, _ => none }) →
    ∃ t, exec (.intervalReport (withCrc (reportContent f.num n ia ib ic ir vr xe q)) false) s = .next t
      ∧ t.sample = s.sample.set f ⟨.valid, some 25, 0, some n, min 50 ((s.sample.get f).runCount + 1)⟩
      ∧ (∀ e, (t.engine.get f).elements.get e = (found e).1)
      ∧ (∀ g, g ≠ f → t.engine.get g = s.engine.get g)
      ∧ ((∀ e, (found e).2 = false) → t = { s with sample := t.sample, engine := t.engine }
        ∧ (t.engine.get f).snapshot = (s.engine.get f).snapshot)
      ∧ (∀ e others, [Element.p2, .p1, .e2, .e1, .s1].filter (fun e => (found e).2) = e :: others →
        (t.engine.get f).snapshot = some (taken e others)
        ∧ t = State.tripRequest { s with
          sample := s.sample.set f ⟨.valid, some 25, 0, some n, min 50 ((s.sample.get f).runCount + 1)⟩
          engine := s.engine.set f ⟨Five.build (fun e => (found e).1), some (taken e others)⟩
          att := notices e } f e))
  ∧ (∀ (f : Feeder) (s : State) (e : Element) (r : Seq) (trip : Bool → State) (opening idle : State), r = s.seq.get f →
    (trip = fun mark => s.putSeq f { Sys2Proof.stopped r with
      state := .tripping .protection mark
      tripElement := some e
      tripDrive := true
      closeDrive := false
      tripFail := some (Sys2Proof.tripTime s f) }) →
    opening = s.putSeq f { r with
      state := .hunt .opening
      tripDrive := true
      closeDrive := false
      closeFail := if r.closeDrive = true then none else r.closeFail
      tripFail := some (r.tripFail.getD (Sys2Proof.tripTime s f)) } →
    idle = s.putSeq f { r with state := .hunt .idle, closeDrive := false, closeFail := none, huntTest := false } →
    ((r.state = .closed ∨ r.state = .reclaim) → s.tripRequest f e =
      if r.position = .opened then (trip r.window.isSome).endTrip f .protection r.window.isSome else trip r.window.isSome)
    ∧ (r.state = .closing .reclose → s.tripRequest f e =
      if r.position = .opened then (trip false).endTrip f .protection false else trip false)
    ∧ (r.state = .closing .host → s.tripRequest f e =
      if r.position = .opened then (trip true).endTrip f .protection true else trip true)
    ∧ ((r.state = .deadTime ∨ ∃ c, r.state = .lockout c) → s.tripRequest f e = if r.position = .opened then s else trip false)
    ∧ (((∃ o m, r.state = .tripping o m) ∨ ∃ o, r.state = .breakerFail o) → s.tripRequest f e = s)
    ∧ (r.state = .hunt .opening → s.tripRequest f e = s)
    ∧ (r.state = .hunt .idle → s.tripRequest f e = if r.position = .opened then s else opening)
    ∧ (r.state = .hunt .restoreClosing → s.tripRequest f e = if r.position = .opened then idle.openReport f else opening)
    ∧ ((r.state = .hunt .testClosing ∨ r.state = .hunt .testClosed) → s.tripRequest f e =
      if r.position = .opened then (idle.testTrip f).openReport f else opening.testTrip f)
    ∧ (∀ h, s.hunts.get f = some h → s.testTrip f =
      if h.phase = .testingClose ∨ h.phase = .testingHold then { s with hunts := s.hunts.set f (some { h with
        candidates := h.candidates.mapIdx (fun i c => if h.current = some i then { c with status := .faulted } else c)
        hold := none
        phase := .restoringOpen }) }
      else s))

/-- The expiry of a watch timer that has run down (01 section 1.2): VALID goes to HELD at count 1; HELD counts up to 4; the fifth in a row
goes to LOST, with every element cleared, a MEAS_LOST notice given, and the MEAS_LOST cause set. A usable report whose run count comes to
50 clears the cause again. A timer with time left, a usable report having restarted it, or stopped has no expiry (log 3). -/
def Obligations.MeasurementsLostAndRegained : Prop :=
  (∀ (f : Feeder) (s : State), (s.sample.get f).watch = some 0 →
    ((s.sample.get f).state = .valid → exec (.watchExpiry f) s = .next { s with
      sample := s.sample.set f { s.sample.get f with state := .held, expiries := 1, runCount := 0, watch := some 25 } })
    ∧ ((s.sample.get f).state = .held → (s.sample.get f).expiries < 4 → exec (.watchExpiry f) s = .next { s with
      sample := s.sample.set f { s.sample.get f with
        expiries := (s.sample.get f).expiries + 1, runCount := 0, watch := some 25 } })
    ∧ ((s.sample.get f).state = .held → 4 ≤ (s.sample.get f).expiries → exec (.watchExpiry f) s = .next
      (State.derive { s with
        sample := s.sample.set f ⟨.lost, none, 5, none, 0⟩
        engine := s.engine.set f { s.engine.get f with elements := Five.fill ⟨false, 0, false, none⟩ }
        att := s.att.give (.feeder f) .measLost
        inputs := s.inputs.set f { s.inputs.get f with measLost := true } } f)))
  ∧ (∀ (f : Feeder) (s : State), (s.sample.get f).watch ≠ some 0 → exec (.watchExpiry f) s = .next s)
  ∧ (∀ (frame : List Byte) (p : Report) (s : State), readReport frame false = some p → p.quality ≠ .invalid →
    (s.sample.get p.feeder).lastSequence ≠ some p.sequence → (s.sample.get p.feeder).runCount = 49 →
    (s.causes p.feeder).measLost = true → exec (.intervalReport frame false) s = .next ((State.derive { s with
      sample := s.sample.set p.feeder ⟨.valid, some 25, 0, some p.sequence, 50⟩
      inputs := s.inputs.set p.feeder { s.inputs.get p.feeder with measLost := false } } p.feeder).evaluateReport p))

/-! ## Settings and staging (02) -/

/-- The fields of a group with their ranges, by the byte and the index that name one (02 sections 2.1 and 2.3): the elements P1, P2, E1,
E2 and S1 have the indexes 0 to 4, and Vsup, which S1 alone has, the index 0 (log 13). A choice or a set stands in the lowest byte, and a
value with more in it is out of range (log 41). -/
def Sys2Proof.groupRange (row index n : Nat) : Prop :=
  ((row = 0 ∨ row = 3) ∧ index ≤ 4 ∧ n ≤ 1)
  ∨ (row = 1 ∧ ((index ≤ 1 ∧ 10 ≤ n ∧ n ≤ 4000) ∨ ((index = 2 ∨ index = 3) ∧ 5 ≤ n ∧ n ≤ 5000)
    ∨ (index = 4 ∧ 5 ≤ n ∧ n ≤ 250)))
  ∨ (row = 2 ∧ index ≤ 4 ∧ 1 ≤ n ∧ n ≤ 31)
  ∨ (row = 4 ∧ (index = 0 ∨ index = 2) ∧ n ≤ 3)
  ∨ (row = 5 ∧ (index = 0 ∨ index = 2) ∧ 5 ≤ n ∧ n ≤ 150)
  ∨ (row = 6 ∧ (index = 0 ∨ index = 2) ∧ n ≤ 60000)
  ∨ (row = 7 ∧ (index = 1 ∨ index = 3 ∨ index = 4) ∧ n ≤ 60000 ∧ n % 10 = 0)
  ∨ (row = 8 ∧ index = 0 ∧ 10 ≤ n ∧ n ≤ 500)
  ∨ (row = 9 ∧ index = 0 ∧ n ≤ 4)
  ∨ (row = 10 ∧ 1 ≤ index ∧ index ≤ 4 ∧ 300 ≤ n ∧ n ≤ 180000 ∧ n % 10 = 0)
  ∨ (row = 11 ∧ index = 0 ∧ 5000 ≤ n ∧ n ≤ 300000)
  ∨ ((row = 12 ∨ row = 14) ∧ index = 0 ∧ n ≤ 6)
  ∨ (row = 13 ∧ index = 0 ∧ n ≤ 1)
  ∨ (row = 15 ∧ index = 0 ∧ 1 ≤ n ∧ n ≤ 6)
  ∨ (row = 16 ∧ index = 0 ∧ 1000 ≤ n ∧ n ≤ 10000)

/-- The fields of a feeder constants record with their ranges (02 sections 2.1 and 2.3). -/
def Sys2Proof.constantRange (row index n : Nat) : Prop :=
  (row = 0 ∧ index = 0 ∧ 100 ≤ n ∧ n ≤ 3000)
  ∨ (row = 1 ∧ index = 0 ∧ n ≤ 5000)
  ∨ (row = 2 ∧ index = 0 ∧ n ≤ 30)
  ∨ (row = 3 ∧ index = 0 ∧ 10 ≤ n ∧ n ≤ 5000)
  ∨ (row = 4 ∧ index = 0 ∧ 60 ≤ n ∧ n ≤ 500)
  ∨ ((row = 5 ∨ row = 6) ∧ index = 0 ∧ 100 ≤ n ∧ n ≤ 2000)
  ∨ (row = 7 ∧ index = 0 ∧ n ≤ 1)
  ∨ (row = 8 ∧ index ≤ 5 ∧ 1 ≤ n ∧ n ≤ 4)

/-- The fields of a curve table with their ranges (02 sections 2.1 and 2.3). -/
def Sys2Proof.curveRange (row index n : Nat) : Prop :=
  (row = 0 ∧ index = 0 ∧ 2 ≤ n ∧ n ≤ 16)
  ∨ (row = 1 ∧ 1 ≤ index ∧ index ≤ 16 ∧ 64 ≤ n ∧ n ≤ 2560)
  ∨ (row = 2 ∧ 1 ≤ index ∧ index ≤ 16 ∧ 10 ≤ n ∧ n ≤ 600000)

/-- The staging commands by the staging state (02 sections 2.3 and 2.4): OPEN_STAGING in CLOSED fills the working copy from a VALID
record, else with the safe group, the safe constants or an unset curve, and with a number out of range or a kind byte that names no kind
it is refused (what may follow such a byte is the model's choice, log 44); in OPEN it is refused WRONG_STATE whatever it carries, a number
out of range and an unnamed kind included (the order of these two refusals is the model's reading, log 21); WRITE_STAGED writes a field
that the copy takes; DISCARD_STAGING in OPEN leads back to CLOSED; COMMIT_STAGING in OPEN answers the first failing field or goes to
COMMITTING. What a commit in flight answers is another statement's. The check of a commit, kind by kind: the first field in the order of
the tables that is unset or out of range, and when there is none the first cross-field rule that fails; that the multiples of a curve
table come before its times is the model's choice (log 40). -/
def Obligations.StagingCommandsAnswer : Prop :=
  (∀ s : State, s.port.phase = .ready →
    (s.store.staging = .closed →
      (∀ f g, exec (.openStaging [0#8, byte f.num, byte g.num]) s = .next ((s.restartSupervision.putStaging
        (.opened (.group f g (match (s.store.groups.get f).get g with
          | .valid c _ => c
          | _ => safeGroup)))).answer 5#8 (ok [])))
      ∧ (∀ n : CurveNo, exec (.openStaging [1#8, byte n.place]) s = .next ((s.restartSupervision.putStaging
        (.opened (.curve n (match s.store.curves.get n with
          | .valid c _ => c.draft
          | _ => ⟨none, List.replicate 16 none, List.replicate 16 none⟩)))).answer 5#8 (ok [])))
      ∧ (∀ f, exec (.openStaging [2#8, byte f.num]) s = .next ((s.restartSupervision.putStaging
        (.opened (.feeder f (match s.store.constants.get f with
          | .valid k _ => k.draft
          | _ => {
              x1 := none
              minUncertainty := none
              uncertaintyPercent := none
              locateThreshold := none
              tripFailTime := some 200
              closeFailTime := some 1000
              windowTime := some 500
              district := some .a
              levelMap := List.replicate 6 none })))).answer 5#8 (ok [])))
      ∧ (∀ a b : Byte, (a.toNat = 0 ∨ 4 < a.toNat ∨ b.toNat = 0 ∨ 4 < b.toNat) →
        exec (.openStaging [0#8, a, b]) s = .next (s.restartSupervision.answer 5#8 (refuse .badField)))
      ∧ (∀ a : Byte, 3 < a.toNat → exec (.openStaging [1#8, a]) s = .next (s.restartSupervision.answer 5#8 (refuse .badField)))
      ∧ (∀ (a : Byte) (rest : List Byte), 2 < a.toNat →
        exec (.openStaging (a :: rest)) s = .next (s.restartSupervision.answer 5#8 (refuse .badField)))
      ∧ (∀ (a b : Byte) (v : Nat), exec (.writeStaged ([a, b] ++ be4 v)) s
        = .next (s.restartSupervision.answer 6#8 (refuse .noStaging)))
      ∧ exec (.discardStaging []) s = .next (s.restartSupervision.answer 8#8 (refuse .noStaging))
      ∧ exec (.commitStaging []) s = .next (s.restartSupervision.answer 9#8 (refuse .noStaging)))
    ∧ (∀ d, s.store.staging = .opened d →
      (∀ a b : Byte, exec (.openStaging [0#8, a, b]) s = .next (s.restartSupervision.answer 5#8 (refuse .wrongState))
        ∧ exec (.openStaging [1#8, a]) s = .next (s.restartSupervision.answer 5#8 (refuse .wrongState))
        ∧ exec (.openStaging [2#8, a]) s = .next (s.restartSupervision.answer 5#8 (refuse .wrongState)))
      ∧ (∀ (a : Byte) (rest : List Byte), 2 < a.toNat →
        exec (.openStaging (a :: rest)) s = .next (s.restartSupervision.answer 5#8 (refuse .wrongState)))
      ∧ (∀ (a b : Byte) (v : Nat), v < 4294967296 → exec (.writeStaged ([a, b] ++ be4 v)) s
        = .next (match d.write ⟨a.toNat, b.toNat, v⟩ with
          | some d' => (s.restartSupervision.putStaging (.opened d')).answer 6#8 (ok [])
          | none => s.restartSupervision.answer 6#8 (refuse .badField)))
      ∧ exec (.discardStaging []) s = .next ((s.restartSupervision.putStaging .closed).answer 8#8 (ok []))
      ∧ exec (.commitStaging []) s = .next (match s.store.commitCheck d with
          | some (row, index) => s.restartSupervision.answer 9#8 ⟨.badField, [byte row, byte index]⟩
          | none => (s.restartSupervision.putStaging (.committing d)).answer 9#8 (ok []))))
  ∧ (∀ (t : Store) (f : Feeder) (g : GroupNo) (c : Group) (good : Machine.Field Group → Prop) (unnamed : ElementSettings → Prop),
    (∀ x, good x ↔ ∃ n, x.get c = some n ∧ Sys2Proof.groupRange x.row x.index n) →
    (∀ x, unnamed x ↔ x.enabled = true ∧ ∀ d w, t.curves.get x.curve ≠ .valid d w) →
    (∀ x ∈ groupFields, ¬ good x →
      (∀ y ∈ groupFields, (y.row < x.row ∨ (y.row = x.row ∧ y.index < x.index)) → good y) →
      t.commitCheck (.group f g c) = some (x.row, x.index))
    ∧ ((∀ x ∈ groupFields, good x) →
      (unnamed c.elements.p1 → t.commitCheck (.group f g c) = some (4, 0))
      ∧ (¬ unnamed c.elements.p1 → unnamed c.elements.e1 → t.commitCheck (.group f g c) = some (4, 2))
      ∧ (¬ unnamed c.elements.p1 → ¬ unnamed c.elements.e1 → t.commitCheck (.group f g c) = none)))
  ∧ (∀ (t : Store) (f : Feeder) (k : ConstantsDraft) (good : Machine.Field ConstantsDraft → Prop),
    (∀ x, good x ↔ ∃ n, x.get k = some n ∧ Sys2Proof.constantRange x.row x.index n) →
    (∀ x ∈ constantFields, ¬ good x →
      (∀ y ∈ constantFields, (y.row < x.row ∨ (y.row = x.row ∧ y.index < x.index)) → good y) →
      t.commitCheck (.feeder f k) = some (x.row, x.index))
    ∧ ((∀ x ∈ constantFields, good x) → t.commitCheck (.feeder f k) = none))
  ∧ (∀ (t : Store) (m : CurveNo) (c : CurveDraft), (∀ n, c.count = some n → n < 2 ∨ 16 < n) →
    t.commitCheck (.curve m c) = some (0, 0))
  ∧ (∀ (t : Store) (m : CurveNo) (c : CurveDraft) (n : Nat) (goodQ goodT : Nat → Prop), c.count = some n → 2 ≤ n → n ≤ 16 →
    (∀ k, goodQ k ↔ ∃ x, c.qs[k]? = some (some x) ∧ 64 ≤ x ∧ x ≤ 2560) →
    (∀ k, goodT k ↔ ∃ x, c.ts[k]? = some (some x) ∧ 10 ≤ x ∧ x ≤ 600000) →
    (∀ k, k < n → ¬ goodQ k → (∀ j, j < k → goodQ j) → t.commitCheck (.curve m c) = some (1, k + 1))
    ∧ (∀ k, k < n → (∀ j, j < n → goodQ j) → ¬ goodT k → (∀ j, j < k → goodT j) →
      t.commitCheck (.curve m c) = some (2, k + 1)))
  ∧ (∀ (t : Store) (m : CurveNo) (c : CurveDraft) (n : Nat) (q T : Nat → Nat), c.count = some n → 2 ≤ n → n ≤ 16 →
    (∀ k, k < n → c.qs[k]? = some (some (q k)) ∧ 64 ≤ q k ∧ q k ≤ 2560) →
    (∀ k, k < n → c.ts[k]? = some (some (T k)) ∧ 10 ≤ T k ∧ T k ≤ 600000) →
    (q 0 ≠ 64 → t.commitCheck (.curve m c) = some (1, 1))
    ∧ (∀ k, q 0 = 64 → k + 1 < n → q (k + 1) ≤ q k → (∀ j, j < k → q j < q (j + 1)) →
      t.commitCheck (.curve m c) = some (1, k + 2))
    ∧ (q 0 = 64 → (∀ j, j + 1 < n → q j < q (j + 1)) →
      (∀ k, k + 1 < n → T k < T (k + 1) → (∀ j, j < k → T (j + 1) ≤ T j) → t.commitCheck (.curve m c) = some (2, k + 2))
      ∧ ((∀ j, j + 1 < n → T (j + 1) ≤ T j) → t.commitCheck (.curve m c) = none)))

/-- What it takes for a written field to stand alone (02 section 2.3): the write fails exactly when no field bears the byte and index or
the one that does refuses the value; else that field reads back as the value, and every other field as before. -/
def Sys2Proof.writesApart {α : Type} (fields : List (Machine.Field α)) (w : StagedFields) (old : α) : Prop :=
  (writeField fields w old = none ↔
    ∀ x ∈ fields, x.row = w.field → x.index = w.index → x.accepts w.value = false)
  ∧ ∀ new, writeField fields w old = some new → ∀ x ∈ fields,
    x.get new = if x.row = w.field ∧ x.index = w.index then some w.value else x.get old

/-- A written field of a working copy reads back as the value written, and no other field changes (02 section 2.3), for every field of
a group, of a curve table and of the constants; and a write is taken exactly when the field belongs to the kind and the value lies in
its range (02 sections 2.1 and 2.3; the index of Vsup is log 13, a choice or a set above its lowest byte log 41). A copy of constants has
six level map entries and one of a curve sixteen breakpoints. -/
def Obligations.StagedFieldsAreWrittenApart : Prop :=
  (∀ (w : StagedFields) (g : Group), Sys2Proof.writesApart groupFields w g)
  ∧ (∀ (w : StagedFields) (k : ConstantsDraft), k.levelMap.length = 6 → Sys2Proof.writesApart constantFields w k)
  ∧ (∀ (w : StagedFields) (c : CurveDraft), c.qs.length = 16 → c.ts.length = 16 →
    Sys2Proof.writesApart (curveFieldsTo 16) w c)
  ∧ (∀ (w : StagedFields) (g : Group), (∃ new, writeField groupFields w g = some new) ↔
    Sys2Proof.groupRange w.field w.index w.value)
  ∧ (∀ (w : StagedFields) (k : ConstantsDraft), (∃ new, writeField constantFields w k = some new) ↔
    Sys2Proof.constantRange w.field w.index w.value)
  ∧ (∀ (w : StagedFields) (c : CurveDraft), (∃ new, writeField (curveFieldsTo 16) w c = some new) ↔
    Sys2Proof.curveRange w.field w.index w.value)

/-- The completion of a commit (02 section 2.4): with the read-back's sum equal, the target is VALID with the working copy's content and
its check word, the staging area CLOSED, and COMMIT_DONE is given with the result OK; else the target is FAULTY with that content, the
staging area OPEN on the same copy, and COMMIT_DONE with FAILED and RECORD_FAULTY are given. A group or constants record has its feeder
derived, a curve table none. The check word is the ones' complement of the sum of the words (the words are the model's free value, log 7).
That the content read back is an operand of the command, and that content of another kind counts as the content held, is the model's
choice (log 8). -/
def Obligations.CommitCompletionWritesTheRecord : Prop :=
  (∀ c : Content, checkWord c + (Config.storeWords c).foldl (· + ·) 0#16 = 0xFFFF#16)
  ∧ (∀ (s : State) (f : Feeder) (g : GroupNo) (c : Group) (found : Option Content),
    s.store.staging = .committing (.group f g c) →
    exec (.commitCompletion found) s = .next (
      if checkWord (givenBack (.group c) found) = checkWord (.group c) then
        ({ s with
          store := { s.store with
            groups := s.store.groups.set f ((s.store.groups.get f).set g (.valid c (checkWord (.group c))))
            staging := .closed }
          att := s.att.give .part (.commitDone (.group f g) true) }).derive f
      else
        ({ s with
          store := { s.store with
            groups := s.store.groups.set f ((s.store.groups.get f).set g (.faulty c (checkWord (.group c))))
            staging := .opened (.group f g c) }
          att := (s.att.give .part (.commitDone (.group f g) false)).give (.feeder f)
            (.recordFaulty (.group f g) .readBack) }).derive f))
  ∧ (∀ (s : State) (f : Feeder) (k : ConstantsDraft) (found : Option Content),
    s.store.staging = .committing (.feeder f k) →
    exec (.commitCompletion found) s = .next (
      if checkWord (givenBack (.constants k.constants) found) = checkWord (.constants k.constants) then
        ({ s with
          store := { s.store with
            constants := s.store.constants.set f (.valid k.constants (checkWord (.constants k.constants)))
            staging := .closed }
          att := s.att.give .part (.commitDone (.feeder f) true) }).derive f
      else
        ({ s with
          store := { s.store with
            constants := s.store.constants.set f (.faulty k.constants (checkWord (.constants k.constants)))
            staging := .opened (.feeder f k) }
          att := (s.att.give .part (.commitDone (.feeder f) false)).give (.feeder f)
            (.recordFaulty (.feeder f) .readBack) }).derive f))
  ∧ (∀ (s : State) (n : CurveNo) (c : CurveDraft) (found : Option Content), s.store.staging = .committing (.curve n c) →
    exec (.commitCompletion found) s = .next (
      if checkWord (givenBack (.curve c.curve) found) = checkWord (.curve c.curve) then
        { s with
          store := { s.store with
            curves := s.store.curves.set n (.valid c.curve (checkWord (.curve c.curve)))
            staging := .closed }
          att := s.att.give .part (.commitDone (.curve n) true) }
      else
        { s with
          store := { s.store with
            curves := s.store.curves.set n (.faulty c.curve (checkWord (.curve c.curve)))
            staging := .opened (.curve n c) }
          att := (s.att.give .part (.commitDone (.curve n) false)).give .part (.recordFaulty (.curve n) .readBack) }))
  ∧ (∀ (s : State) (found : Option Content), (∀ d, s.store.staging ≠ .committing d) →
    exec (.commitCompletion found) s = .next s)

/-- A second tick (05 section 5.1, 02 section 2.5): while UNSET no calendar field moves; while SET the second advances with every carry up
to the year, and the carry from second 59 begins a second of 32768 less twice the trim and is a minute change, handed on at that event;
and at every tick the scrubber checks the first VALID record from its pointer on, moves the pointer past it, and makes it FAULTY when its
check word does not hold for what storage gave back. That SECOND_TICK hands on in the order in which 05 section 5.1 lists the takers, and
that the scrubber comes after them, is the model's choice (log 9). So is that what storage gave back is an operand, content of another
kind counting as the content held (log 8), and that a second which ends no minute is one of 32768 pulses (log 33). -/
def Obligations.SecondTickAdvancesAndScrubs : Prop :=
  (∀ (found : Option Content) (s : State), s.cal.clock = none →
    exec (.secondTick found) s = .next (State.scrub { s with cal := { s.cal with prescaler := 0, secondLength := 32768 } } found))
  ∧ (∀ (found : Option Content) (s : State) (k : Clock), s.cal.clock = some k → k.second < 59 →
    exec (.secondTick found) s = .next (State.scrub { s with
      cal := { s.cal with clock := some { k with second := k.second + 1 }, prescaler := 0, secondLength := 32768 } } found))
  ∧ (∀ (found : Option Content) (s : State) (k : Clock) (m : Minute) (weekday : Nat) (date : Bool),
    s.cal.clock = some k → k.real = true → k.second = 59 →
    (m, weekday, date) = (
      if k.minute.minute < 59 then ({ k.minute with minute := k.minute.minute + 1 }, k.weekday, false)
      else if k.minute.hour < 23 then ({ k.minute with hour := k.minute.hour + 1, minute := 0 }, k.weekday, false)
      else (
        if k.minute.day < (if k.minute.month = 2 then (if k.minute.year % 4 = 0 then 29 else 28)
            else if k.minute.month ∈ [4, 6, 9, 11] then 30 else 31) then
          ⟨k.minute.year, k.minute.month, k.minute.day + 1, 0, 0⟩
        else if k.minute.month < 12 then ⟨k.minute.year, k.minute.month + 1, 1, 0, 0⟩
        else ⟨if k.minute.year = 2099 then 2000 else k.minute.year + 1, 1, 1, 0, 0⟩,
        (k.weekday + 1) % 7, true)) →
    exec (.secondTick found) s = .next (State.scrub (State.minuteChange { s with
      cal := { s.cal with
        clock := some ⟨m, 0, weekday⟩
        prescaler := 0
        secondLength := (32768 - 2 * s.cal.trim).toNat } }
      ⟨m, 0, weekday⟩ ⟨date, decide (m.year < k.minute.year)⟩ [.tags, .declarations, .schedule, .windows]) found))
  ∧ (∀ (found : Option Content) (s : State),
    (∀ n, 1 ≤ n → n ≤ 24 → s.store.validAt n = none) → s.scrub found = s)
  ∧ (∀ (found : Option Content) (s : State) (i n : Nat) (x : Target) (c : Content) (w : Word16), i < 24 →
    n = (s.store.scrub - 1 + i) % 24 + 1 → s.store.validAt n = some (x, c, w) →
    (∀ j, j < i → s.store.validAt ((s.store.scrub - 1 + j) % 24 + 1) = none) →
    s.scrub found =
      if checkWord (givenBack c found) = w then { s with store := { s.store with scrub := n % 24 + 1 } }
      else State.tellRecord { s with
        store := { s.store.write x false (givenBack c found) w with scrub := n % 24 + 1 }
        att := s.att.give x.scope (.recordFaulty x .scrub) } x)

/-! ## The breaker and the sequence (03) -/

/-- CLOSE_BREAKER (03 section 3.7), by its checks in order: not in LOCKOUT, under TAG_NO_CLOSE, not seen OPEN, and else the host close
whatever the cause of the lockout and whatever other causes stand. That the close clears the trip element is the model's reading (log 22,
from the field's table in 03 section 3.2). -/
def Obligations.CloseBreakerIssuesOrRefuses : Prop :=
  ∀ (f : Feeder) (s : State) (r : Seq), s.port.phase = .ready → r = s.seq.get f →
    ((∀ c, r.state ≠ .lockout c) →
      exec (.closeBreaker [byte f.num]) s = .next (s.restartSupervision.answer 14#8 (refuse .wrongState)))
    ∧ (∀ c, r.state = .lockout c → (s.causes f).tagNoClose = true →
      exec (.closeBreaker [byte f.num]) s = .next (s.restartSupervision.answer 14#8 (refuse .blocked)))
    ∧ (∀ c, r.state = .lockout c → (s.causes f).tagNoClose = false → r.position ≠ .opened →
      exec (.closeBreaker [byte f.num]) s = .next (s.restartSupervision.answer 14#8 (refuse .wrongState)))
    ∧ (∀ c, r.state = .lockout c → (s.causes f).tagNoClose = false → r.position = .opened →
      exec (.closeBreaker [byte f.num]) s = .next ((s.restartSupervision.putSeq f { r with
        state := .closing .host
        shots := 0
        tripElement := none
        closeDrive := true
        closeFail := some (match s.constants f with
          | some k => k.closeFailTime
          | none => 1000) }).answer 14#8 (ok [])))

/-- OPEN_BREAKER (03 section 3.7), by the state: a trip of origin HOST_OPEN, a trip in progress taken over, a lockout with cause HOST_OPEN
or its cause replaced without a notice, a hunt ended ABANDONED(HOST) first, and WRONG_STATE in BREAKER_FAIL. A trip that finds the breaker
OPEN ends at the same event (03 section 3.1). Two things are the model's: the trip element is kept when the command takes over a trip in
progress (log 22, beside the table of 03 section 3.2), and in HUNT the choice reads the trip drive, and no LOCKOUT of HUNT_END is told on
the way to the lockout HOST_OPEN (log 23). -/
def Obligations.OpenBreakerActsByState : Prop :=
  ∀ (f : Feeder) (s : State) (r trip locked : Seq) (notice : Attention), s.port.phase = .ready → r = s.seq.get f →
    trip = { Sys2Proof.stopped r with
      state := .tripping .hostOpen false
      tripElement := none
      tripDrive := true
      closeDrive := false
      tripFail := some (Sys2Proof.tripTime s f) } →
    locked = { Sys2Proof.stopped r with state := .lockout .hostOpen, tripElement := none } →
    notice = s.restartSupervision.att.give (.feeder f) (.lockout .hostOpen r.shots) →
    ((r.state = .closed ∨ r.state = .reclaim ∨ (∃ k, r.state = .closing k) ∨ (∃ c, r.state = .lockout c)) →
      r.position ≠ .opened →
      exec (.openBreaker [byte f.num]) s = .next ((s.restartSupervision.putSeq f trip).answer 15#8 (ok [])))
    ∧ ((r.state = .closed ∨ r.state = .reclaim ∨ ∃ k, r.state = .closing k) → r.position = .opened →
      exec (.openBreaker [byte f.num]) s = .next ({ s.restartSupervision.putSeq f
        { locked with tripDrive := false, closeDrive := false } with att := notice }.answer 15#8 (ok [])))
    ∧ (∀ c, r.state = .lockout c → r.position = .opened →
      exec (.openBreaker [byte f.num]) s = .next ((s.restartSupervision.putSeq f
        { r with state := .lockout .hostOpen }).answer 15#8 (ok [])))
    ∧ (∀ o m, r.state = .tripping o m →
      exec (.openBreaker [byte f.num]) s = .next ((s.restartSupervision.putSeq f
        { r with state := .tripping .hostOpen m }).answer 15#8 (ok [])))
    ∧ (r.state = .deadTime →
      exec (.openBreaker [byte f.num]) s = .next ({ s.restartSupervision.putSeq f locked with att := notice }.answer 15#8
        (ok [])))
    ∧ (∀ o, r.state = .breakerFail o →
      exec (.openBreaker [byte f.num]) s = .next (s.restartSupervision.answer 15#8 (refuse .wrongState)))
    ∧ (∀ x h, r.state = .hunt x → h = s.restartSupervision.closeHunt f (.abandoned .host) none →
      (r.tripDrive = true → exec (.openBreaker [byte f.num]) s = .next ((h.putSeq f { r with
        state := .tripping .hostOpen false
        tripElement := none
        huntTest := false }).answer 15#8 (ok [])))
      ∧ (r.tripDrive = false → r.position ≠ .opened →
        exec (.openBreaker [byte f.num]) s = .next ((h.putSeq f trip).answer 15#8 (ok [])))
      ∧ (r.tripDrive = false → r.position = .opened →
        exec (.openBreaker [byte f.num]) s = .next ({ h.putSeq f { locked with closeDrive := false } with
          att := h.att.give (.feeder f) (.lockout .hostOpen r.shots) }.answer 15#8 (ok []))))

/-- CLEAR_BREAKER_FAIL in BREAKER_FAIL releases the trip drive, and the position decides between CLOSED and LOCKOUT with cause PROTECTION;
in any other state it is refused (03 section 3.3). SET_HOST_BLOCK sets or clears the input and the feeder is derived, unless it stands so
already (03 section 3.7). That either end of BREAKER_FAIL clears the trip element is the model's reading (log 22, from the field's table
in 03 section 3.2). -/
def Obligations.ClearFailAndHostBlockAnswer : Prop :=
  ∀ (f : Feeder) (s : State) (r : Seq), s.port.phase = .ready → r = s.seq.get f →
    (∀ o, r.state = .breakerFail o → r.position = .closed →
      exec (.clearBreakerFail [byte f.num]) s = .next ((s.restartSupervision.putSeq f { r with
        state := .closed
        shots := 0
        tripElement := none
        window := none
        huntTest := false
        tripDrive := false
        tripFail := none }).answer 16#8 (ok [])))
    ∧ (∀ o, r.state = .breakerFail o → r.position ≠ .closed →
      exec (.clearBreakerFail [byte f.num]) s = .next ({ s.restartSupervision.putSeq f { Sys2Proof.stopped r with
        state := .lockout .protection
        tripElement := none
        tripDrive := false } with
        att := s.restartSupervision.att.give (.feeder f) (.lockout .protection r.shots) }.answer 16#8 (ok [])))
    ∧ ((∀ o, r.state ≠ .breakerFail o) →
      exec (.clearBreakerFail [byte f.num]) s = .next (s.restartSupervision.answer 16#8 (refuse .wrongState)))
    ∧ (∀ b : Bool, exec (.setHostBlock [byte f.num, if b then 0#8 else 1#8]) s = .next (
        if (s.inputs.get f).hostBlock = b then s.restartSupervision.answer 17#8 (ok [])
        else (State.derive { s.restartSupervision with
          inputs := s.inputs.set f { s.inputs.get f with hostBlock := b } } f).answer 17#8 (ok [])))
    ∧ (∀ v : Byte, 1 < v.toNat →
      exec (.setHostBlock [byte f.num, v]) s = .next (s.restartSupervision.answer 17#8 (refuse .badField)))

/-- A change of the decoded position outside HUNT, and when none is made (03 sections 3.1, 3.3, 3.4, 3.5 and 3.6): `s'` is the state with
the contacts taken, `r` the record with the new position. The end of a trip of origin PROTECTION with shots left or an earth element is
the next statement's. That a trip that a host open has taken over keeps its trip element into the LOCKOUT that ends it, and that every
other LOCKOUT here and CLOSED clear it, is the model's reading (log 22, from the field's table in 03 section 3.2). -/
def Obligations.PositionChangesMoveTheSequence : Prop :=
  ∀ (f : Feeder) (c : Contacts) (s s' : State) (r : Seq),
    s' = { s with contacts := s.contacts.set f c } → r = { s.seq.get f with position := c.decode } →
    (c.decode = .closed ↔ c = ⟨true, false⟩) ∧ (c.decode = .opened ↔ c = ⟨false, true⟩)
    ∧ (c.decode = .travel ↔ c = ⟨false, false⟩) ∧ (c.decode = .invalid ↔ c = ⟨true, true⟩)
    ∧ (c.decode = (s.seq.get f).position → exec (.decodedPositionChange f c) s = .next s')
    ∧ (c.decode ≠ (s.seq.get f).position →
      (c.decode = .travel → exec (.decodedPositionChange f c) s = .next (s'.putSeq f r))
      ∧ (c.decode = .invalid → exec (.decodedPositionChange f c) s = .next { s'.putSeq f r with
        att := s.att.give (.feeder f) (.positionAlarm .invalid) })
      ∧ (c.decode = .opened →
        ((r.state = .closed ∨ r.state = .reclaim) → exec (.decodedPositionChange f c) s = .next {
          s'.putSeq f { Sys2Proof.stopped r with state := .lockout .externalOpen, tripElement := none } with
          att := (s.att.give (.feeder f) (.lockout .externalOpen r.shots)).give (.feeder f) (.positionAlarm .externalOpen) })
        ∧ ((r.state = .deadTime ∨ (∃ k, r.state = .closing k) ∨ ∃ x, r.state = .lockout x) →
          exec (.decodedPositionChange f c) s = .next (s'.putSeq f r))
        ∧ (∀ o, r.state = .breakerFail o → exec (.decodedPositionChange f c) s = .next {
          s'.putSeq f { Sys2Proof.stopped r with state := .lockout .protection, tripElement := none, tripDrive := false } with
          att := s.att.give (.feeder f) (.lockout .protection r.shots) })
        ∧ (∀ m, r.state = .tripping .hostOpen m → exec (.decodedPositionChange f c) s = .next {
          s'.putSeq f { Sys2Proof.stopped r with state := .lockout .hostOpen, tripDrive := false } with
          att := s.att.give (.feeder f) (.lockout .hostOpen r.shots) })
        ∧ (∀ m, r.state = .tripping .huntEnd m → exec (.decodedPositionChange f c) s = .next {
          s'.putSeq f { Sys2Proof.stopped r with state := .lockout .huntEnd, tripDrive := false } with
          att := s.att.give (.feeder f) (.lockout .huntEnd r.shots) }))
      ∧ (c.decode = .closed →
        (r.state = .closing .reclose → exec (.decodedPositionChange f c) s = .next (s'.putSeq f { r with
          state := .reclaim
          closeDrive := false
          closeFail := none
          reclaim := some (s.activeGroup f).reclaimTime }))
        ∧ (r.state = .closing .host → exec (.decodedPositionChange f c) s = .next (s'.putSeq f { r with
          state := .closed
          shots := 0
          closeDrive := false
          closeFail := none
          window := some (match s.constants f with
            | some k => k.windowTime
            | none => 500) }))
        ∧ ((r.state = .deadTime ∨ ∃ x, r.state = .lockout x) → exec (.decodedPositionChange f c) s = .next {
          s'.putSeq f { r with
            state := .closed
            shots := 0
            tripElement := none
            dead := none
            window := none
            huntTest := false } with
          att := s.att.give (.feeder f) (.positionAlarm .externalClose) })
        ∧ ((r.state = .closed ∨ r.state = .reclaim ∨ (∃ o m, r.state = .tripping o m) ∨ ∃ o, r.state = .breakerFail o) →
          exec (.decodedPositionChange f c) s = .next (s'.putSeq f r))))

/-- The causes that block a hunt's closes, in the order of the permission table (06 section 6.3, log 25). -/
def Sys2Proof.huntBlocker (s : State) (f : Feeder) : Option Cause :=
  [Cause.tagNoReclose, .tagNoClose, .seasonHunt, .measLost, .fallback, .restorePending, .hostBlock].find? (s.causes f).has

/-- The start of a hunt (08 section 8.3): the record built with every candidate PENDING, the feeder in HUNT at shot 0 with the service
IDLE, and the first step. -/
def Sys2Proof.huntStarted (s : State) (f : Feeder) (host : Bool) (numbers : List Nat) : State :=
  let h : Hunt := {
    phase := .isolatingOpen
    hostStart := host
    candidates := numbers.map (fun n => ⟨n, .pending⟩)
    current := none
    budget := (s.activeGroup f).testBudget
    used := 0
    location := s.locate f
    hold := none
    isolating := none
    detail := none
    named := [] }
  State.takeStep (State.putSeq { s with hunts := s.hunts.set f (some h) } f
    { s.seq.get f with state := .hunt .idle, shots := 0, tripElement := none }) f h

/-- A breaker seen OPEN in TRIPPING of origin PROTECTION (03 sections 3.3 and 3.4): the trip drive is released and the trip-fail timer
stopped, and the first case that holds decides: onto a fault LOCKOUT(PROTECTION), shots left and no reclose-blocking cause DEAD_TIME with
the dead time of the shot, shots left under one LOCKOUT(BLOCKED), else LOCKOUT(PROTECTION). A lockout gives its notice and is offered to
the Hunt Unit when the trip element is an earth one, which starts a hunt where the group allows it, no hunt-blocking cause stands and the
location gives a candidate, and else declines without effect (08 section 8.3). The trip element is kept into the next state; that a hunt
that starts clears it is the model's reading (log 22, from the field's table in 03 section 3.2). -/
def Obligations.TripEndDecidesTheNextState : Prop :=
  (∀ (f : Feeder) (s : State) (numbers : List Nat), numbers = candidatesOf (s.sections.get f) (s.locate f) →
    ((s.activeGroup f).huntEnabled = true → Sys2Proof.huntBlocker s f = none → numbers ≠ [] →
      s.offerHunt f = Sys2Proof.huntStarted s f false numbers)
    ∧ (((s.activeGroup f).huntEnabled = false ∨ Sys2Proof.huntBlocker s f ≠ none ∨ numbers = []) → s.offerHunt f = s))
  ∧ ∀ (f : Feeder) (c : Contacts) (s : State) (mark : Bool) (r : Seq) (out : LockoutCause → State),
    c = ⟨false, true⟩ → (s.seq.get f).state = .tripping .protection mark → (s.seq.get f).position ≠ .opened →
    r = { s.seq.get f with position := .opened, tripDrive := false, tripFail := none } → r.shots ≤ 4 →
    (∀ x, out x = { State.putSeq { s with contacts := s.contacts.set f c } f { Sys2Proof.stopped r with state := .lockout x } with
      att := s.att.give (.feeder f) (.lockout x r.shots) }) →
    (mark = false → r.shots < (s.activeGroup f).shotCount → (s.activeGroup f).shotCount ≤ 4 →
      (∀ x, (s.causes f).has x = true → x = .seasonHunt) → ∃ n : Ix4, n.num = r.shots + 1 ∧
      exec (.decodedPositionChange f c) s = .next (State.putSeq { s with contacts := s.contacts.set f c } f { r with
        state := .deadTime
        dead := some ((s.activeGroup f).deadTimes.get n) }))
    ∧ (∀ x, (mark = true ∧ x = LockoutCause.protection)
        ∨ (mark = false ∧ r.shots < (s.activeGroup f).shotCount ∧ (∃ y, (s.causes f).has y = true ∧ y ≠ .seasonHunt)
          ∧ x = .blocked)
        ∨ (mark = false ∧ (s.activeGroup f).shotCount ≤ r.shots ∧ x = .protection) →
      exec (.decodedPositionChange f c) s = .next (
        if r.tripElement ∈ [some Element.e1, some .e2, some .s1] then (out x).offerHunt f else out x))

/-- The expiries of the sequencer's timers outside HUNT (03 sections 3.3, 3.4 and 3.6), each taken when its timer has run down, and
without effect at any other moment (log 3): the trip-fail timer leads to BREAKER_FAIL with its notice and the backup line asserted, the
close-fail timer to LOCKOUT(CLOSE_FAIL), the dead timer to LOCKOUT(BLOCKED), the reclose or LOCKOUT(CLOSE_FAIL) judged in that order, the
reclaim timer to CLOSED at shot 0, and the window timer's ends the window. That the reclose and the lockouts of the dead and close-fail
timers clear the trip element is the model's reading (log 22, from the field's table in 03 section 3.2). -/
def Obligations.SequenceTimersExpire : Prop :=
  ∀ (f : Feeder) (s : State) (r : Seq), r = s.seq.get f →
    (∀ o m, r.tripFail = some 0 → r.state = .tripping o m → ∃ t, exec (.tripFailExpiry f) s = .next t
      ∧ t = { s with
        backup := true
        seq := s.seq.set f { r with state := .breakerFail o, tripFail := none, huntTest := false }
        att := s.att.give (.feeder f) (.breakerFail o) })
    ∧ (∀ k, r.closeFail = some 0 → r.state = .closing k → exec (.closeFailExpiry f) s = .next {
      s.putSeq f { Sys2Proof.stopped r with state := .lockout .closeFail, tripElement := none, closeDrive := false } with
      att := (s.att.give (.feeder f) (.lockout .closeFail r.shots)).give (.feeder f) (.positionAlarm .closeFail) })
    ∧ (r.dead = some 0 → r.state = .deadTime →
      (((s.activeGroup f).shotCount ≤ r.shots ∨ ∃ y, (s.causes f).has y = true ∧ y ≠ .seasonHunt) →
        exec (.deadTimerExpiry f) s = .next {
          s.putSeq f { Sys2Proof.stopped r with state := .lockout .blocked, tripElement := none } with
          att := s.att.give (.feeder f) (.lockout .blocked r.shots) })
      ∧ (r.shots < (s.activeGroup f).shotCount → (∀ y, (s.causes f).has y = true → y = .seasonHunt) →
        (r.position = .opened → exec (.deadTimerExpiry f) s = .next (s.putSeq f { r with
          state := .closing .reclose
          shots := r.shots + 1
          tripElement := none
          dead := none
          closeDrive := true
          closeFail := some (match s.constants f with
            | some k => k.closeFailTime
            | none => 1000) }))
        ∧ (r.position ≠ .opened → exec (.deadTimerExpiry f) s = .next {
          s.putSeq f { Sys2Proof.stopped r with state := .lockout .closeFail, tripElement := none } with
          att := (s.att.give (.feeder f) (.lockout .closeFail r.shots)).give (.feeder f)
            (.positionAlarm .positionUnknown) })))
    ∧ (r.reclaim = some 0 → r.state = .reclaim →
      exec (.reclaimTimerExpiry f) s = .next (s.putSeq f { r with state := .closed, shots := 0, reclaim := none }))
    ∧ (r.window = some 0 → exec (.closeOntoFaultWindowExpiry f) s = .next (s.putSeq f { r with window := none }))
    ∧ (r.tripFail ≠ some 0 → exec (.tripFailExpiry f) s = .next s)
    ∧ (r.closeFail ≠ some 0 → exec (.closeFailExpiry f) s = .next s)
    ∧ (r.dead ≠ some 0 → exec (.deadTimerExpiry f) s = .next s)
    ∧ (r.reclaim ≠ some 0 → exec (.reclaimTimerExpiry f) s = .next s)
    ∧ (r.window ≠ some 0 → exec (.closeOntoFaultWindowExpiry f) s = .next s)

/-! ## Tags (04) -/

/-- PLACE_TAG (04 section 4.3), by its checks in order: BAD_FIELD for a field out of range, FULL at 48 tags, DUPLICATE for a number that
is borne, BAD_FIELD for an expiry on a NO_CLOSE tag or a scope on any but a HUNT_EXCLUDE one, NOT_FOUND for a section that the feeder does
not hold, and BAD_FIELD for an expiry not later than the calendar's minute or beside an UNSET calendar; and when every check passes the
tag is appended LIVE with no bad attempts and the calendar's time, and its feeder is derived. -/
def Obligations.PlacedTagStands : Prop :=
  (∀ (s : State) (p : Payload) (x : PlaceTagFields), s.port.phase = .ready → readPlaceTag p = some x →
    (x.number = 0 ∨ x.feeder = 0 ∨ 4 < x.feeder ∨ 2 < x.kind ∨ 4 < x.scope.length ∨ ¬ x.scope.Nodup
      ∨ (∃ n ∈ x.scope, n = 0 ∨ 16 < n) ∨ 1 < x.authority ∨ x.holder = 0 ∨ 9999 < x.holder
      ∨ ∃ m, x.expiry = some m ∧ m.real = false) →
    exec (.placeTag p) s = .next (s.restartSupervision.answer 19#8 (refuse .badField)))
  ∧ ∀ (s : State) (n : Nat) (f : Feeder) (k : TagKind) (scope : List Nat) (h : Holder) (e : Option Minute) (p : Payload),
    s.port.phase = .ready → 1 ≤ n → n ≤ 65535 → scope.Nodup → scope.length ≤ 4 → (∀ x ∈ scope, 1 ≤ x ∧ x ≤ 16) →
    1 ≤ h.number → h.number ≤ 9999 → (∀ m, e = some m → m.real = true) →
    p = be2 n ++ [byte f.num, byte k.place] ++ listOf be1 scope ++ ([byte h.authority.place] ++ be2 h.number)
      ++ opt minuteBytes e →
    (48 ≤ s.tags.length → exec (.placeTag p) s = .next (s.restartSupervision.answer 19#8 (refuse .full)))
    ∧ (s.tags.length < 48 → (∃ t ∈ s.tags, t.number = n) →
      exec (.placeTag p) s = .next (s.restartSupervision.answer 19#8 (refuse .duplicate)))
    ∧ (s.tags.length < 48 → (∀ t ∈ s.tags, t.number ≠ n) → ((k = .noClose ∧ e ≠ none) ∨ (k ≠ .huntExclude ∧ scope ≠ [])) →
      exec (.placeTag p) s = .next (s.restartSupervision.answer 19#8 (refuse .badField)))
    ∧ (s.tags.length < 48 → (∀ t ∈ s.tags, t.number ≠ n) → (k = .noClose → e = none) → (k ≠ .huntExclude → scope = []) →
      (∃ x ∈ scope, (s.sections.get f).find x = none) →
      exec (.placeTag p) s = .next (s.restartSupervision.answer 19#8 (refuse .notFound)))
    ∧ (s.tags.length < 48 → (∀ t ∈ s.tags, t.number ≠ n) → (k = .noClose → e = none) → (k ≠ .huntExclude → scope = []) →
      (∀ x ∈ scope, ((s.sections.get f).find x).isSome = true) →
      (∃ m, e = some m ∧ ∀ c, s.cal.clock = some c → m.rank ≤ c.minute.rank) →
      exec (.placeTag p) s = .next (s.restartSupervision.answer 19#8 (refuse .badField)))
    ∧ (s.tags.length < 48 → (∀ t ∈ s.tags, t.number ≠ n) → (k = .noClose → e = none) → (k ≠ .huntExclude → scope = []) →
      (∀ x ∈ scope, ((s.sections.get f).find x).isSome = true) →
      (∀ m, e = some m → ∃ c, s.cal.clock = some c ∧ c.minute.rank < m.rank) →
      exec (.placeTag p) s = .next ((State.derive { s.restartSupervision with
        tags := s.tags ++ [⟨n, f, k, scope, h, s.cal.clock.map (fun c => ⟨c.minute, c.second⟩), e, false, 0⟩] } f).answer 19#8
        (ok [byte (s.tags.length + 1), byte (s.tags.length + 1)])))

/-- AMEND_TAG (04 section 4.4), `x` being the fields that its payload carries, by its checks in order: BAD_FIELD for a field out of range
or no change carried, NOT_FOUND for a number not borne, FROZEN for a FROZEN tag, NOT_HOLDER for another holder's amend, which is a bad
attempt as RELEASE_TAG's is, BAD_FIELD for a change that does not widen, NOT_FOUND for an added section that the feeder does not hold;
and else a new expiry, its removal, and the sections added are applied in place and the feeder derived. The layout of the payload, and that
an empty list of sections is a change carried, are the model's reading (log 16). -/
def Obligations.AmendedTagIsWidened : Prop :=
  (∀ (s : State) (p : Payload) (x : AmendTagFields), s.port.phase = .ready → readAmendTag p = some x →
    (x.number = 0 ∨ 1 < x.authority ∨ x.holder = 0 ∨ 9999 < x.holder ∨ (x.expiry = none ∧ x.sections = none)
      ∨ (∃ m, x.expiry = some (some m) ∧ m.real = false)
      ∨ ∃ ns, x.sections = some ns ∧ (¬ ns.Nodup ∨ ∃ n ∈ ns, n = 0 ∨ 16 < n)) →
    exec (.amendTag p) s = .next (s.restartSupervision.answer 20#8 (refuse .badField)))
  ∧ (∀ (s : State) (p : Payload) (x : AmendTagFields), s.port.phase = .ready → readAmendTag p = some x →
    1 ≤ x.number → x.authority ≤ 1 → 1 ≤ x.holder → x.holder ≤ 9999 → (x.expiry ≠ none ∨ x.sections ≠ none) →
    (∀ m, x.expiry = some (some m) → m.real = true) →
    (∀ ns, x.sections = some ns → ns.Nodup ∧ ∀ n ∈ ns, 1 ≤ n ∧ n ≤ 16) → (∀ t ∈ s.tags, t.number ≠ x.number) →
    exec (.amendTag p) s = .next (s.restartSupervision.answer 20#8 (refuse .notFound)))
  ∧ ∀ (s : State) (p : Payload) (x : AmendTagFields) (t : Tag) (h : Holder),
    s.port.phase = .ready → readAmendTag p = some x →
    1 ≤ x.number → 1 ≤ x.holder → x.holder ≤ 9999 → x.authority = h.authority.place → x.holder = h.number →
    (x.expiry ≠ none ∨ x.sections ≠ none) → (∀ m, x.expiry = some (some m) → m.real = true) →
    (∀ ns, x.sections = some ns → ns.Nodup ∧ ∀ n ∈ ns, 1 ≤ n ∧ n ≤ 16) →
    s.tags.find? (fun u => decide (u.number = x.number)) = some t →
    (t.frozen = true → exec (.amendTag p) s = .next (s.restartSupervision.answer 20#8 (refuse .frozen)))
    ∧ (t.frozen = false → t.holder ≠ h →
      exec (.amendTag p) s = .next ((s.restartSupervision.badAttempt t h).answer 20#8 (refuse .notHolder)))
    ∧ (t.frozen = false → t.holder = h →
      ((∃ m, x.expiry = some (some m) ∧ ((∀ old, t.expiry = some old → m.rank ≤ old.rank)
          ∨ ∀ c, s.cal.clock = some c → m.rank ≤ c.minute.rank))
        ∨ (x.expiry = some none ∧ t.expiry = none)
        ∨ ∃ ns, x.sections = some ns ∧ (t.kind ≠ .huntExclude ∨ t.scope = []
          ∨ 4 < (t.scope ++ ns.filter (fun n => !t.scope.contains n)).length)) →
      exec (.amendTag p) s = .next (s.restartSupervision.answer 20#8 (refuse .badField)))
    ∧ (t.frozen = false → t.holder = h →
      (∀ m, x.expiry = some (some m) → ∃ old c, t.expiry = some old ∧ old.rank < m.rank
        ∧ s.cal.clock = some c ∧ c.minute.rank < m.rank) →
      (x.expiry = some none → t.expiry ≠ none) →
      (∃ ns, x.sections = some ns ∧ t.kind = .huntExclude ∧ t.scope ≠ []
        ∧ (t.scope ++ ns.filter (fun n => !t.scope.contains n)).length ≤ 4
        ∧ ∃ n ∈ ns, (s.sections.get t.feeder).find n = none) →
      exec (.amendTag p) s = .next (s.restartSupervision.answer 20#8 (refuse .notFound)))
    ∧ (t.frozen = false → t.holder = h →
      (∀ m, x.expiry = some (some m) → ∃ old c, t.expiry = some old ∧ old.rank < m.rank
        ∧ s.cal.clock = some c ∧ c.minute.rank < m.rank) →
      (x.expiry = some none → t.expiry ≠ none) →
      (∀ ns, x.sections = some ns → t.kind = .huntExclude ∧ t.scope ≠ []
        ∧ (t.scope ++ ns.filter (fun n => !t.scope.contains n)).length ≤ 4
        ∧ ∀ n ∈ ns, ((s.sections.get t.feeder).find n).isSome = true) →
      exec (.amendTag p) s = .next ((State.derive { s.restartSupervision with
        tags := s.tags.map (fun u => if u.number = x.number then { u with
          expiry := x.expiry.getD u.expiry
          scope := u.scope ++ (x.sections.getD []).filter (fun n => !u.scope.contains n) } else u) } t.feeder).answer 20#8
        (ok [])))

/-- RELEASE_TAG (04 section 4.5), by its checks in order: a holder out of range is refused BAD_FIELD and a number not borne NOT_FOUND; a
FROZEN tag stays; the holder's own release retires a LIVE one and its feeder is derived; another
holder's is a bad attempt, answered NOT_HOLDER, that raises the count, and the third freezes the tag and gives TAG_FROZEN. -/
def Obligations.ReleaseRetiresOrCounts : Prop :=
  (∀ (s : State) (n m : Nat) (a : Byte), s.port.phase = .ready → m ≤ 65535 → (m = 0 ∨ 9999 < m ∨ 1 < a.toNat) →
    exec (.releaseTag (be2 n ++ [a] ++ be2 m)) s = .next (s.restartSupervision.answer 21#8 (refuse .badField)))
  ∧ (∀ (s : State) (n m : Nat) (a : Byte), s.port.phase = .ready → n ≤ 65535 → 1 ≤ m → m ≤ 9999 → a.toNat ≤ 1 →
    (∀ t ∈ s.tags, t.number ≠ n) →
    exec (.releaseTag (be2 n ++ [a] ++ be2 m)) s = .next (s.restartSupervision.answer 21#8 (refuse .notFound)))
  ∧ ∀ (s : State) (n : Nat) (t : Tag) (h : Holder) (p : Payload), s.port.phase = .ready → n ≤ 65535 →
    1 ≤ h.number → h.number ≤ 9999 → p = be2 n ++ [byte h.authority.place] ++ be2 h.number →
    s.tags.find? (fun u => decide (u.number = n)) = some t →
    (t.frozen = true → exec (.releaseTag p) s = .next (s.restartSupervision.answer 21#8 (refuse .frozen)))
    ∧ (t.frozen = false → t.holder = h → exec (.releaseTag p) s = .next ((State.derive { s.restartSupervision with
        tags := s.tags.filter (fun u => decide (u.number ≠ n)) } t.feeder).answer 21#8 (ok [])))
    ∧ (t.frozen = false → t.holder ≠ h → t.badAttempts < 2 →
      exec (.releaseTag p) s = .next (State.answer { s.restartSupervision with
        tags := s.tags.map (fun u => if u.number = n then { u with badAttempts := t.badAttempts + 1, frozen := false } else u) }
        21#8 (refuse .notHolder)))
    ∧ (t.frozen = false → t.holder ≠ h → t.badAttempts = 2 →
      exec (.releaseTag p) s = .next (State.answer { s.restartSupervision with
        tags := s.tags.map (fun u => if u.number = n then { u with badAttempts := 3, frozen := true } else u)
        att := s.restartSupervision.att.give (.feeder t.feeder) (.tagFrozen n h) } 21#8 (refuse .notHolder)))

/-- SUPERVISOR_RELEASE (04 section 4.5), by its checks in order: the holder out of range, from the control room, the number not borne; and
else the tag is retired, LIVE or FROZEN, whoever holds it. TAGS_RESTORED (04 section 4.8) clears RESTORE_PENDING on every feeder and
derives those that held it, and has no effect when none did. -/
def Obligations.SupervisorReleasesAndRestores : Prop :=
  ∀ (s : State), s.port.phase = .ready →
    (∀ (n m : Nat) (a : Byte), (m = 0 ∨ 9999 < m ∨ 1 < a.toNat) → m ≤ 65535 →
      exec (.supervisorRelease (be2 n ++ [a] ++ be2 m)) s = .next (s.restartSupervision.answer 22#8 (refuse .badField)))
    ∧ (∀ n m, 1 ≤ m → m ≤ 9999 →
      exec (.supervisorRelease (be2 n ++ [0#8] ++ be2 m)) s = .next (s.restartSupervision.answer 22#8 (refuse .notHolder)))
    ∧ (∀ n m, n ≤ 65535 → 1 ≤ m → m ≤ 9999 → (∀ t ∈ s.tags, t.number ≠ n) →
      exec (.supervisorRelease (be2 n ++ [1#8] ++ be2 m)) s = .next (s.restartSupervision.answer 22#8 (refuse .notFound)))
    ∧ (∀ n m t, n ≤ 65535 → 1 ≤ m → m ≤ 9999 → s.tags.find? (fun u => decide (u.number = n)) = some t →
      exec (.supervisorRelease (be2 n ++ [1#8] ++ be2 m)) s = .next ((State.derive { s.restartSupervision with
        tags := s.tags.filter (fun u => decide (u.number ≠ n)) } t.feeder).answer 22#8 (ok [])))
    ∧ exec (.tagsRestored []) s = .next ((State.deriveMany { s.restartSupervision with
        inputs := Four.build (fun f => { s.inputs.get f with restorePending := false }) }
        ([Ix4.n1, .n2, .n3, .n4].filter (fun f => (s.inputs.get f).restorePending))).answer 25#8 (ok []))

/-! ## The season calendar (05) -/

/-- The district floors and levels that a calendar's windows, activity and declarations give (05 sections 5.3 and 5.5). -/
def Sys2Proof.levelsFollow (c : Calendar) : Prop :=
  ∀ d, c.levels.get d = max (c.floors.get d) (match c.declarations.get d with
    | some x => x.level
    | none => 0)

/-- The floors that a calendar's windows and their activity give (05 section 5.3). -/
def Sys2Proof.floorsFollow (c : Calendar) : Prop :=
  ∀ d, (∀ i w, c.windows.get i = some w → c.active.get i = true → w.districts.has d = true → w.floor ≤ c.floors.get d)
    ∧ (c.floors.get d = 0 ∨ ∃ i w, c.windows.get i = some w ∧ c.active.get i = true ∧ w.districts.has d = true
      ∧ w.floor = c.floors.get d)

/-- SET_CALENDAR with a real time (05 section 5.2): every field is written, the prescaler cleared, the second one of 32768, every window
evaluated, the reached declarations cleared, the ONCE entries passed and the LIVE tags expired retired, the levels derived, and nothing
fired; trim, windows and other entries stay. Each feeder that loses a tag has a TAG_EXPIRED notice of its last and is derived anew (04
section 4.6), then the feeders of each district whose level moved, and all four when the calendar was UNSET: the whole state is given by
these derivations in turn. Their order, the tags before the levels, is the model's choice (log 29). An unreal time is refused. SET_TRIM
takes -100 to 100 in two's complement (05 section 5.1). -/
def Obligations.CalendarIsSet : Prop :=
  (∀ (s : State) (k : Clock), s.port.phase = .ready → k.real = true →
    ∃ t, exec (.setCalendar (minuteBytes k.minute ++ [byte k.second, byte k.weekday])) s = .next t
      ∧ t.port.buffer = ⟨.ok, 26#8, []⟩
      ∧ t.cal.clock = some k ∧ t.cal.prescaler = 0 ∧ t.cal.secondLength = 32768
      ∧ t.cal.trim = s.cal.trim ∧ t.cal.windows = s.cal.windows
      ∧ (∀ i, t.cal.active.get i = match s.cal.windows.get i with
        | some w => w.enabled && w.covers k.minute.year k.minute.month k.minute.day
        | none => false)
      ∧ Sys2Proof.floorsFollow t.cal ∧ Sys2Proof.levelsFollow t.cal
      ∧ (∀ d, t.cal.declarations.get d = match s.cal.declarations.get d with
        | some ⟨l, some u⟩ => if u.rank ≤ k.minute.rank then none else some ⟨l, some u⟩
        | x => x)
      ∧ t.cal.schedule = s.cal.schedule.filter (fun p => match p.2.recurrence with
        | .once m => decide (k.minute.rank < m.rank)
        | _ => true)
      ∧ t.tags = s.tags.filter (fun x => x.frozen || match x.expiry with
        | some e => decide (k.minute.rank < e.rank)
        | none => true)
      ∧ t.store = s.store ∧ t.inputs = s.inputs ∧ t.latch = s.latch ∧ t.sections = s.sections ∧ t.sample = s.sample
      ∧ t.engine = s.engine
      ∧ ∀ (gone : List Tag) (losing moved : List Feeder) (u v : State),
        gone = s.tags.filter (fun x => !x.frozen && match x.expiry with
          | some e => decide (e.rank ≤ k.minute.rank)
          | none => false) →
        losing = [Ix4.n1, .n2, .n3, .n4].filter (fun f => gone.any (fun x => decide (x.feeder = f))) →
        moved = [Ix4.n1, .n2, .n3, .n4].filter (fun f =>
          let d := match s.constants f with
            | some c => c.district
            | none => .a
          decide (t.cal.levels.get d ≠ s.cal.levels.get d)) →
        u = State.deriveMany { s.restartSupervision with
          cal := { t.cal with levels := s.cal.levels }
          tags := t.tags
          att := losing.foldl (fun a f => match (gone.filter (fun x => decide (x.feeder = f))).getLast? with
            | some x => a.give (.feeder f) (.tagExpired x.number x.holder)
            | none => a) s.restartSupervision.att } losing →
        v = State.deriveMany { u with cal := t.cal } moved →
        t = State.answer (if s.cal.clock = none then v.deriveMany [.n1, .n2, .n3, .n4] else v) 26#8 (ok []))
  ∧ (∀ (s : State) (p : Payload) (k : Clock), s.port.phase = .ready → readClock p = some k → k.real = false →
    exec (.setCalendar p) s = .next (s.restartSupervision.answer 26#8 (refuse .badField)))
  ∧ (∀ (s : State) (b : Byte), s.port.phase = .ready →
    ((b.toNat ≤ 100 ∨ 156 ≤ b.toNat) → exec (.setTrim [b]) s = .next (State.answer { s.restartSupervision with
      cal := { s.cal with trim := b.toInt } } 28#8 (ok [])))
    ∧ (100 < b.toNat → b.toNat < 156 →
      exec (.setTrim [b]) s = .next (s.restartSupervision.answer 28#8 (refuse .badField))))

/-- A month and day stands at or before another in the year. -/
def Sys2Proof.notAfter (x y : Nat × Nat) : Prop := x.1 < y.1 ∨ (x.1 = y.1 ∧ x.2 ≤ y.2)

/-- A window covers a day of a year (05 section 5.3): both its ends count; in a year without February 29 that day is March 1 as a start
and February 28 as an end, but a window of that day alone covers no day; and a window whose start, so taken, stands after its end wraps
the end of the year. -/
def Sys2Proof.windowCovers (w : Window) (day : Minute) : Prop :=
  ¬ (day.year % 4 ≠ 0 ∧ (w.startMonth, w.startDay) = (2, 29) ∧ (w.endMonth, w.endDay) = (2, 29))
  ∧ ∃ first last : Nat × Nat,
    first = (if day.year % 4 ≠ 0 ∧ (w.startMonth, w.startDay) = (2, 29) then (3, 1) else (w.startMonth, w.startDay))
    ∧ last = (if day.year % 4 ≠ 0 ∧ (w.endMonth, w.endDay) = (2, 29) then (2, 28) else (w.endMonth, w.endDay))
    ∧ if first.1 < last.1 ∨ (first.1 = last.1 ∧ first.2 ≤ last.2) then
        Sys2Proof.notAfter first (day.month, day.day) ∧ Sys2Proof.notAfter (day.month, day.day) last
      else Sys2Proof.notAfter first (day.month, day.day) ∨ Sys2Proof.notAfter (day.month, day.day) last

/-- The commands on season windows, declarations and schedule entries (05 sections 5.3, 5.4 and 5.6): each writes its slot, a window slot
is evaluated and the floors derived, the levels follow, and the feeders of each district whose level moved are derived; a clear of an
EMPTY window slot changes nothing; and each is refused BAD_FIELD for a field out of range, an until not later than the calendar's minute,
or a ONCE entry with a repeat or a minute reached. An evaluation of one slot or of all finds a window active exactly when the slot holds
it, it is enabled, the calendar is SET and the date lies within it, leaves the other slots as they were, and each floor becomes the
highest of the active windows that name its district, or 0. The enabled byte is 0 for enabled (log 12) and the repeat byte 255 PERPETUAL
(log 17), both the model's. -/
def Obligations.SeasonCommandsWrite : Prop :=
  ∀ s : State, s.port.phase = .ready →
    (∀ (i : Ix4) (w : Window), realMonthDay w.startMonth w.startDay = true → realMonthDay w.endMonth w.endDay = true →
      1 ≤ w.floor → w.floor ≤ 5 → (w.districts.a = true ∨ w.districts.b = true) →
      exec (.writeWindow ([byte i.num] ++ windowBytes w)) s = .next ((s.restartSupervision.recalendar (fun c =>
        ({ c with windows := c.windows.set i (some w) }).evaluate i)).answer 29#8 (ok [])))
    ∧ (∀ i : Ix4, s.cal.windows.get i ≠ none → exec (.clearWindow [byte i.num]) s = .next ((s.restartSupervision.recalendar
      (fun c => ({ c with windows := c.windows.set i none }).evaluate i)).answer 30#8 (ok [])))
    ∧ (∀ i : Ix4, s.cal.windows.get i = none →
      exec (.clearWindow [byte i.num]) s = .next (s.restartSupervision.answer 30#8 (ok [])))
    ∧ (∀ (m : Mask) (l : Nat) (u : Option Minute), (m.a = true ∨ m.b = true) → l ≤ 5 →
      (∀ x, u = some x → x.real = true ∧ ∃ k, s.cal.clock = some k ∧ k.minute.rank < x.rank) →
      exec (.declareLevel (maskByte m ++ [byte l] ++ opt minuteBytes u)) s = .next ((s.restartSupervision.recalendar (fun c =>
        { c with declarations := ⟨if m.a then some ⟨l, u⟩ else c.declarations.a,
          if m.b then some ⟨l, u⟩ else c.declarations.b⟩ })).answer 32#8 (ok [])))
    ∧ (∀ m : Mask, (m.a = true ∨ m.b = true) →
      exec (.liftLevel (maskByte m)) s = .next ((s.restartSupervision.recalendar (fun c =>
        { c with declarations := ⟨if m.a then none else c.declarations.a, if m.b then none else c.declarations.b⟩ })).answer
        33#8 (ok [])))
    ∧ (∀ (n : Nat) (e : Entry), 1 ≤ n → n ≤ 16 → e.recurrence.inRange = true →
      (∀ m l d, e.action = .declare m l d → (m.a = true ∨ m.b = true) ∧ l ≤ 5 ∧ ∀ x, d = some x → 1 ≤ x ∧ x ≤ 10080) →
      (∀ m, e.action = .lift m → m.a = true ∨ m.b = true) → (∀ x, e.repeats = some x → x ≤ 254) →
      (s.cal.schedule.find n = none →
        (∀ m, e.recurrence = .once m → e.repeats = some 0 ∧ ∃ k, s.cal.clock = some k ∧ k.minute.rank < m.rank) →
        exec (.addEntry ([byte n] ++ entryBytes e)) s = .next ((s.restartSupervision.putSchedule
          (s.cal.schedule.put n e)).answer 34#8 (ok [])))
      ∧ (s.cal.schedule.find n ≠ none →
        exec (.addEntry ([byte n] ++ entryBytes e)) s = .next (s.restartSupervision.answer 34#8 (refuse .duplicate))))
    ∧ (∀ n, 1 ≤ n → n ≤ 16 → exec (.deleteEntry [byte n]) s = .next (match s.cal.schedule.find n with
      | some _ => (s.restartSupervision.putSchedule (s.cal.schedule.filter (fun p => p.1 != n))).answer 35#8 (ok [])
      | none => s.restartSupervision.answer 35#8 (refuse .notFound)))
    ∧ (∀ (p : Payload) (x : WindowFields), readWindowFields p = some x → (x.slot = 0 ∨ 4 < x.slot
        ∨ realMonthDay x.startMonth x.startDay = false ∨ realMonthDay x.endMonth x.endDay = false
        ∨ x.districts = 0 ∨ 3 < x.districts ∨ x.floor = 0 ∨ 5 < x.floor ∨ 1 < x.enabled) →
      exec (.writeWindow p) s = .next (s.restartSupervision.answer 29#8 (refuse .badField)))
    ∧ (∀ b : Byte, (b = 0#8 ∨ 4 < b.toNat) →
      exec (.clearWindow [b]) s = .next (s.restartSupervision.answer 30#8 (refuse .badField)))
    ∧ (∀ (p : Payload) (x : DeclareFields), readDeclare p = some x → (x.districts = 0 ∨ 3 < x.districts ∨ 5 < x.level
        ∨ ∃ m, x.untilMinute = some m ∧ (m.real = false ∨ ∀ k, s.cal.clock = some k → m.rank ≤ k.minute.rank)) →
      exec (.declareLevel p) s = .next (s.restartSupervision.answer 32#8 (refuse .badField)))
    ∧ (∀ b : Byte, (b = 0#8 ∨ 3 < b.toNat) →
      exec (.liftLevel [b]) s = .next (s.restartSupervision.answer 33#8 (refuse .badField)))
    ∧ (∀ (p : Payload) (x : EntryFields), readEntryFields p = some x →
      ((x.slot = 0 ∨ 16 < x.slot ∨ x.recurrence.inRange = false
        ∨ (∃ d l n, x.action = .declare d l n ∧ (d = 0 ∨ 3 < d ∨ 5 < l ∨ n = some 0 ∨ ∃ y, n = some y ∧ 10080 < y))
        ∨ ∃ d, x.action = .lift d ∧ (d = 0 ∨ 3 < d)) →
        exec (.addEntry p) s = .next (s.restartSupervision.answer 34#8 (refuse .badField)))
      ∧ (∀ m, x.recurrence = .once m → s.cal.schedule.find x.slot = none →
        (x.repeats ≠ 0 ∨ ∀ k, s.cal.clock = some k → m.rank ≤ k.minute.rank) →
        exec (.addEntry p) s = .next (s.restartSupervision.answer 34#8 (refuse .badField))))
    ∧ (∀ b : Byte, (b = 0#8 ∨ 16 < b.toNat) →
      exec (.deleteEntry [b]) s = .next (s.restartSupervision.answer 35#8 (refuse .badField)))
    ∧ (∀ (c e : Calendar) (live : Ix4 → Prop),
      (∀ i, live i ↔ ∃ w k, c.windows.get i = some w ∧ w.enabled = true ∧ c.clock = some k
        ∧ Sys2Proof.windowCovers w k.minute) →
      (∀ i, e = c.evaluate i → e = { c with active := e.active, floors := e.floors } ∧ (e.active.get i = true ↔ live i)
        ∧ (∀ j, j ≠ i → e.active.get j = c.active.get j) ∧ Sys2Proof.floorsFollow e)
      ∧ (e = c.evaluateAll → e = { c with active := e.active, floors := e.floors } ∧ (∀ i, e.active.get i = true ↔ live i)
        ∧ Sys2Proof.floorsFollow e))
    ∧ (∀ (g : Calendar → Calendar) (fs : List Feeder),
      fs = [Ix4.n1, .n2, .n3, .n4].filter (fun f =>
        let d := match s.constants f with
          | some k => k.district
          | none => .a
        decide ((g s.cal).levelOf d ≠ (g s.cal).levels.get d)) →
      s.recalendar g = State.deriveMany { s with
        cal := { g s.cal with levels := ⟨(g s.cal).levelOf .a, (g s.cal).levelOf .b⟩ } } fs)
    ∧ (∀ (g : Calendar → Calendar), (s.recalendar g).cal = { g s.cal with levels := ⟨(g s.cal).levelOf .a, (g s.cal).levelOf .b⟩ }
      ∧ Sys2Proof.levelsFollow (s.recalendar g).cal
      ∧ ((∀ d, (g s.cal).levelOf d = (g s.cal).levels.get d) → s.recalendar g = { s with cal := g s.cal }))

/-- What a declaration slot holds once every entry that matches a minute has fired, in slot order (05 sections 5.4 and 5.6). -/
def Sys2Proof.firedSlot (c : Calendar) (k : Clock) (x : District) : Option Declaration :=
  match (c.schedule.filter (fun p => p.2.recurrence.fits k.minute k.weekday && match p.2.action with
    | .declare m _ _ => m.has x
    | .lift m => m.has x)).getLast? with
  | some (_, ⟨_, .declare _ l n, _⟩) => some ⟨l, n.map (addMinutes k.minute)⟩
  | some (_, ⟨_, .lift _, _⟩) => none
  | none => c.declarations.get x

/-- The schedule once every entry that matches a minute has fired (05 section 5.6). -/
def Sys2Proof.firedSchedule (c : Calendar) (k : Clock) : Table Entry :=
  c.schedule.filterMap (fun p =>
    if p.2.recurrence.fits k.minute k.weekday then
      match p.2.repeats with
      | none => some p
      | some 0 => none
      | some (n + 1) => some (p.1, { p.2 with repeats := some n })
    else some p)

/-- What a minute change leaves of a declaration slot, unless the schedule has written it in the same minute (05 section 5.4). -/
def Sys2Proof.unreached (m : Minute) (wrap kept : Bool) (y : Option Declaration) : Option Declaration :=
  match y with
  | some ⟨l, some u⟩ => if kept = false ∧ (wrap = true ∨ u.rank ≤ m.rank) then none else some ⟨l, some u⟩
  | y => y

/-- A minute change is handed on to its four takers, each once, at the tick that carries the second from 59 to 0, in whatever order (05
section 5.1, 04 section 4.6): the LIVE tags expired leave, with a notice for each feeder that loses one; each entry that matches the
minute fires, and leaves or has its repeat lowered by one unless perpetual; a slot that firings write ends the minute with what the last
of them in slot order gave it, a level until so many calendar minutes later, the last minute of 2099 at most, or EMPTY; of the other
declarations those reached are cleared, and at the wrap of the year all that hold an until; a date change evaluates the windows; the
levels follow; and the scrubber is served. The whole state is that of the takers one after another, each with its notices and its
tellings: so the TAG_EXPIRED notices (04 section 4.6) and what the derivations hand on. That MINUTE_CHANGE is the tick itself with the
order and the scrubber's reading as operands, and has no effect where no tick carries, is the model's choice (logs 9 and 10). -/
def Obligations.MinuteChangeIsHandedOn : Prop :=
  (∀ (tick : MinuteTick) (s : State), (s.cal.clock = none ∨ ∃ k, s.cal.clock = some k ∧ k.second < 59) →
    exec (.minuteChange tick) s = .next s)
  ∧ (∀ (order : List MinuteTaker) (found : Option Content) (s : State) (k0 k : Clock) (d : Carry), s.cal.clock = some k0 →
    k0.tick = (k, some d) →
    ∃ t u : State, exec (.minuteChange ⟨order, found⟩) s = .next t ∧ t = u.scrub found
      ∧ t.cal = u.cal ∧ t.tags = u.tags ∧ u.store = s.store
      ∧ t.cal.clock = some k ∧ t.cal.prescaler = 0 ∧ t.cal.secondLength = (32768 - 2 * s.cal.trim).toNat
      ∧ t.cal.trim = s.cal.trim ∧ t.cal.windows = s.cal.windows
      ∧ t.tags = s.tags.filter (fun x => x.frozen || match x.expiry with
        | some e => decide (k.minute.rank < e.rank)
        | none => true)
      ∧ t.cal.schedule = Sys2Proof.firedSchedule s.cal k
      ∧ (∀ x, t.cal.declarations.get x = Sys2Proof.firedSlot { s.cal with
        declarations := ⟨Sys2Proof.unreached k.minute d.yearWrap false s.cal.declarations.a,
          Sys2Proof.unreached k.minute d.yearWrap false s.cal.declarations.b⟩ } k x)
      ∧ ((d.dateChange = false ∧ d.yearWrap = false) → t.cal.active = s.cal.active ∧ t.cal.floors = s.cal.floors)
      ∧ ((d.dateChange = true ∨ d.yearWrap = true) → Sys2Proof.floorsFollow t.cal ∧ ∀ i,
        t.cal.active.get i = match s.cal.windows.get i with
          | some w => w.enabled && w.covers k.minute.year k.minute.month k.minute.day
          | none => false)
      ∧ Sys2Proof.levelsFollow t.cal
      ∧ t.inputs = s.inputs ∧ t.latch = s.latch ∧ t.sections = s.sections ∧ t.sample = s.sample ∧ t.engine = s.engine
      ∧ ∃ o : List MinuteTaker, o.Nodup ∧ (∀ x, x ∈ o) ∧ (order.Nodup → order.length = 4 → o = order)
        ∧ u = State.minuteChange { s with
          cal := { s.cal with
            clock := some k
            prescaler := 0
            secondLength := (32768 - 2 * s.cal.trim).toNat } } k d o)
  ∧ (∀ (s : State) (k : Clock) (d : Carry) (order : List MinuteTaker) (kept : District → Bool), order.Nodup → order.length = 4 →
    (∀ x, kept x = (decide (order.idxOf .schedule < order.idxOf .declarations)
      && s.cal.schedule.any (fun p => p.2.recurrence.fits k.minute k.weekday && match p.2.action with
        | .declare m _ _ => m.has x
        | .lift m => m.has x))) →
    s.minuteChange k d order = order.foldl (fun (v : State) x => match x with
      | .tags => v.expireAndTell k.minute
      | .declarations => v.recalendar (fun c => { c with
        declarations := ⟨Sys2Proof.unreached k.minute d.yearWrap (kept .a) c.declarations.a,
          Sys2Proof.unreached k.minute d.yearWrap (kept .b) c.declarations.b⟩ })
      | .schedule => v.recalendar (fun c => { c with
        schedule := Sys2Proof.firedSchedule c k
        declarations := ⟨Sys2Proof.firedSlot c k .a, Sys2Proof.firedSlot c k .b⟩ })
      | .windows => if d.dateChange = true ∨ d.yearWrap = true then v.recalendar Calendar.evaluateAll else v) s)
  ∧ (∀ (m : Minute) (n : Nat), m.real = true → addMinutes m 0 = m ∧ addMinutes m (n + 1) =
    if addMinutes m n = ⟨2099, 12, 31, 23, 59⟩ then ⟨2099, 12, 31, 23, 59⟩
    else (Clock.tick ⟨addMinutes m n, 59, 0⟩).1.minute)
  ∧ (∀ (s : State) (m : Minute) (gone : List Tag) (fs : List Feeder),
    gone = s.tags.filter (fun x => !x.frozen && ((x.expiry.map (fun e => e.le m)).getD false)) →
    fs = [Ix4.n1, .n2, .n3, .n4].filter (fun f => gone.any (fun x => decide (x.feeder = f))) →
    s.expireAndTell m = State.deriveMany { s with
      tags := s.tags.filter (fun x => x.frozen || !((x.expiry.map (fun e => e.le m)).getD false))
      att := fs.foldl (fun a f => match (gone.filter (fun x => decide (x.feeder = f))).getLast? with
        | some x => a.give (.feeder f) (.tagExpired x.number x.holder)
        | none => a) s.att } fs)

/-! ## The feeder condition (06) -/

/-- SELECT_GROUP (06 section 6.2): the value, 0 for AUTO or a group, becomes the host-forced group, the feeder is derived, and the response
carries the group and the source that the derivation gave; with no fallback latch a forced group that is not VALID answers SAFE, and AUTO
the level map's group or SAFE. Any other value is refused. That AUTO and SAFE stand at 0 is the model's reading (log 35). -/
def Obligations.SelectGroupForcesAndDerives : Prop :=
  ∀ (s : State) (f : Feeder), s.port.phase = .ready →
    (∀ v : Byte, 4 < v.toNat → exec (.selectGroup [byte f.num, v]) s = .next (s.restartSupervision.answer 39#8 (refuse .badField)))
    ∧ (∀ x : Option GroupNo, ∃ t : State, t = State.derive { s.restartSupervision with
        inputs := s.inputs.set f { s.inputs.get f with forced := x } } f
      ∧ exec (.selectGroup [byte f.num, byte (match x with
          | some g => g.num
          | none => 0)]) s = .next (t.answer 39#8 ⟨.ok, [byte (match (t.cond.get f).group with
            | some g => g.num
            | none => 0), byte (match (t.cond.get f).source with
            | .forced => 0
            | .levelMap => 1
            | .fallback => 2
            | .safeSubstitute => 3)]⟩)
      ∧ (t.inputs.get f).forced = x
      ∧ (s.latch = false →
        (∀ g, x = some g → (t.cond.get f).group = (if ((s.store.groups.get f).get g).validContent.isSome then some g else none)
          ∧ (t.cond.get f).source = if ((s.store.groups.get f).get g).validContent.isSome then .forced else .safeSubstitute)
        ∧ (∀ k, x = none → s.constants f = some k →
          (t.cond.get f).group = (if ((s.store.groups.get f).get (k.levelMap.get (s.level f))).validContent.isSome then
              some (k.levelMap.get (s.level f)) else none))
        ∧ (x = none → s.constants f = none → (t.cond.get f).group = none ∧ (t.cond.get f).source = .safeSubstitute)))

/-- The active group and its source when a group is asked for (06 section 6.2): the group, or SAFE when its record is not VALID. -/
def Sys2Proof.groupServes (s : State) (f : Feeder) (c : Condition) (g : GroupNo) (source : GroupSource) : Prop :=
  match (s.store.groups.get f).get g with
  | .valid _ _ => c.group = some g ∧ c.source = source
  | _ => c.group = none ∧ c.source = .safeSubstitute

/-- A tag of a kind, LIVE or FROZEN, names a feeder (04 section 4.1). -/
def Sys2Proof.taggedBy (s : State) (f : Feeder) (k : TagKind) (t : Tag) : Prop := t ∈ s.tags ∧ t.feeder = f ∧ t.kind = k

/-- A derivation works out the record of its feeder from its inputs (06 sections 6.2 to 6.4, 05 section 5.5): the effective level is 5
while the calendar is UNSET, and else that of the feeder's district; the active group is the first that the latch, the forcing and the
level map give, or SAFE; each cause stands exactly while its condition holds, the season causes judged from the level and the group found;
work mode and the exclusion set come from the tags, and the wish from the causes. It then hands on what differs from the old record (06
section 6.5), in the order of log 29: the LEVEL_CHANGE notice; the desired blocks of the feeder's RECLOSERs when the wish has changed,
their held-back marks cleared; a reclose-blocking cause newly present, which takes a running dead time to LOCKOUT(BLOCKED) with no offer
to the Hunt Unit (03 section 3.4), its trip element cleared by log 22 (03 section 3.2); a hunt-blocking cause newly present, of several
the first in the table (log 25); and a changed exclusion set. The record becomes the derived one and no other record changes; no other
feeder's sequencer record or hunt changes, of the devices only the desired states, owner and held-back marks, and no other block but
Attention, where notices of this feeder alone enter; no device of another feeder changes, as long as every head device of the feeder's
sections is a device of the feeder (07 section 7.2); and where the record is as derived already, nothing changes. -/
def Obligations.DerivationTouchesItsFeeder : Prop :=
  ∀ (f : Feeder) (s : State),
    (s.derive f).cond = s.cond.set f (s.conditionOf f)
    ∧ (∀ c, c = s.conditionOf f →
      (s.cal.clock = none → c.level = 5)
      ∧ (s.cal.clock ≠ none → c.level = s.cal.levels.get (match s.store.constants.get f with
        | .valid k _ => k.district
        | _ => .a))
      ∧ (∀ k, s.latch = true → s.constants f = some k → Sys2Proof.groupServes s f c (k.levelMap.get 5) .fallback)
      ∧ (s.latch = true → s.constants f = none → c.group = none ∧ c.source = .fallback)
      ∧ (∀ g, s.latch = false → (s.inputs.get f).forced = some g → Sys2Proof.groupServes s f c g .forced)
      ∧ (∀ k, s.latch = false → (s.inputs.get f).forced = none → s.constants f = some k →
        Sys2Proof.groupServes s f c (k.levelMap.get c.level) .levelMap)
      ∧ (s.latch = false → (s.inputs.get f).forced = none → s.constants f = none →
        c.group = none ∧ c.source = .safeSubstitute)
      ∧ (c.causes.has .tagNoReclose = true ↔ ∃ t, Sys2Proof.taggedBy s f .noReclose t)
      ∧ (c.causes.has .tagNoClose = true ↔ ∃ t, Sys2Proof.taggedBy s f .noClose t)
      ∧ (∀ g x w, c.group = some g → (s.store.groups.get f).get g = .valid x w →
        (c.causes.has .seasonReclose = true ↔ x.recloseCeiling ≤ c.level)
        ∧ (c.causes.has .seasonHunt = true ↔ x.huntCeiling ≤ c.level))
      ∧ (c.group = none → c.causes.has .seasonReclose = true ∧ c.causes.has .seasonHunt = true)
      ∧ c.causes.has .measLost = (s.inputs.get f).measLost ∧ c.causes.has .fallback = s.latch
      ∧ c.causes.has .restorePending = (s.inputs.get f).restorePending ∧ c.causes.has .hostBlock = (s.inputs.get f).hostBlock
      ∧ (c.workMode = true ↔ ∃ t, Sys2Proof.taggedBy s f .noReclose t)
      ∧ (c.wish = true ↔ ∃ y, c.causes.has y = true ∧ y ≠ .seasonHunt ∧ y ≠ .measLost)
      ∧ ((∃ t, Sys2Proof.taggedBy s f .huntExclude t ∧ t.scope = []) → c.exclusion = .wholeFeeder)
      ∧ ((∀ t, Sys2Proof.taggedBy s f .huntExclude t → t.scope ≠ []) → ∃ ns, c.exclusion = .sections ns
        ∧ ns.Pairwise (· < ·) ∧ ∀ n, n ∈ ns ↔ ∃ t, Sys2Proof.taggedBy s f .huntExclude t ∧ n ∈ t.scope))
    ∧ (∀ (old new : Condition) (fresh : Cause → Bool) (s1 s2 s3 s4 : State), old = s.cond.get f → new = s.conditionOf f →
      (∀ y, fresh y = (new.causes.has y && !old.causes.has y)) →
      s1 = { s with
        cond := s.cond.set f new
        att := if old.level = new.level then s.att else s.att.give (.feeder f) (.levelChange old.level new.level) } →
      s2 = (if old.wish = new.wish then s1 else { s1 with link := { s1.link with
        devices := s.link.devices.map (fun p => (p.1, if p.2.feeder = f ∧ p.2.kind = .recloser then { p.2 with
          desiredBlock := some (if new.wish then .blocked else .unblocked), blockHeld := false } else p.2)) } }) →
      s3 = (if (s.seq.get f).state = .deadTime ∧ ([Cause.tagNoReclose, .tagNoClose, .seasonReclose, .measLost, .fallback,
          .restorePending, .hostBlock].any fresh) = true then
        { s2.putSeq f { Sys2Proof.stopped (s.seq.get f) with state := .lockout .blocked, tripElement := none } with
          att := s2.att.give (.feeder f) (.lockout .blocked (s.seq.get f).shots) } else s2) →
      s4 = (match [Cause.tagNoReclose, .tagNoClose, .seasonHunt, .measLost, .fallback, .restorePending, .hostBlock].find? fresh with
        | some y => s3.huntCause f y
        | none => s3) →
      s.derive f = if old.exclusion = new.exclusion then s4 else s4.huntExclusion f)
    ∧ (∀ g, g ≠ f → (s.derive f).seq.get g = s.seq.get g ∧ (s.derive f).hunts.get g = s.hunts.get g)
    ∧ (s.derive f).pending = s.pending ∧ (s.derive f).contacts = s.contacts ∧ (s.derive f).sample = s.sample
    ∧ (s.derive f).engine = s.engine ∧ (s.derive f).store = s.store ∧ (s.derive f).tags = s.tags ∧ (s.derive f).cal = s.cal
    ∧ (s.derive f).inputs = s.inputs ∧ (s.derive f).latch = s.latch ∧ (s.derive f).sections = s.sections
    ∧ (s.derive f).port = s.port
    ∧ (s.derive f).link = { s.link with devices := (s.derive f).link.devices }
    ∧ (s.derive f).link.devices.map (fun p => (p.1, { p.2 with
        desired := none, owner := .host, posHeld := false, desiredBlock := none, blockHeld := false }))
      = s.link.devices.map (fun p => (p.1, { p.2 with
        desired := none, owner := .host, posHeld := false, desiredBlock := none, blockHeld := false }))
    ∧ ((∀ p ∈ s.sections.get f, ∀ a, p.2.head = some a → ∀ d, (a, d) ∈ s.link.devices → d.feeder = f) →
      (s.derive f).link.devices.filter (fun p => decide (p.2.feeder ≠ f)) = s.link.devices.filter (fun p => decide (p.2.feeder ≠ f)))
    ∧ (s.derive f).att = { s.att with notices := (s.derive f).att.notices, line := (s.derive f).att.line }
    ∧ (s.derive f).att.notices.filter (fun n => decide (n.scope ≠ .feeder f)) = s.att.notices.filter (fun n => decide (n.scope ≠ .feeder f))
    ∧ (s.cond.get f = s.conditionOf f → s.derive f = s)

/-! ## The section map (07) -/

/-- WRITE_SECTION and DELETE_SECTION (07 section 7.2), by their checks in order: every field in range, base at most limit, no hunt on the
feeder, the section not named by a tag, the parent another held section that does not descend from it, the head device a record of the
feeder that heads no other section; and then the slot is written and no other slot changes. A section named by a tag, under a hunt or with
children is not deleted. The byte that names the field at fault (log 18), IN_USE to a delete with no payload (log 30) and the enabled byte,
0 for enabled (log 12), are the model's. -/
def Obligations.SectionWritesAndDeletes : Prop :=
  ∀ (s : State) (f : Feeder) (n : Nat), s.port.phase = .ready → 1 ≤ n → n ≤ 16 →
    (∀ x : Section, x.base ≤ x.limit → x.limit ≤ 120000 → s.huntRuns f = false →
      (s.sections.get f).find n = none ∨ (∀ t ∈ s.tags, t.feeder = f → n ∉ t.scope) →
      x.parent = 0 ∨ (x.parent ≤ 16 ∧ x.parent ≠ n ∧ (s.sections.get f).find x.parent ≠ none
        ∧ n ∉ ancestors (s.sections.get f) x.parent) →
      (∀ a, x.head = some a → 1 ≤ a ∧ a ≤ 30 ∧ (∃ d, s.link.devices.find a = some d ∧ d.feeder = f)
        ∧ ∀ g, ∀ p ∈ s.sections.get g, p.2.head = some a → g = f ∧ p.1 = n) →
      exec (.writeSection ([byte f.num, byte n] ++ be4 x.base ++ be4 x.limit ++ [byte x.parent] ++ opt be1 x.head
        ++ [if x.enabled then 0#8 else 1#8])) s = .next (State.answer { s.restartSupervision with
          sections := s.sections.set f ((s.sections.get f).put n x) } 41#8 (ok []))
      ∧ ((s.sections.get f).put n x).find n = some x
      ∧ ∀ m, m ≠ n → ((s.sections.get f).put n x).find m = (s.sections.get f).find m)
    ∧ (∀ (p : Payload) (x : SectionFields), readSectionFields p = some x →
      ∀ w, (if x.feeder = 0 ∨ 4 < x.feeder then some 0#8 else if x.number = 0 ∨ 16 < x.number then some 1#8
          else if 120000 < x.base then some 2#8 else if 120000 < x.limit then some 3#8 else if 16 < x.parent then some 4#8
          else if (∃ a, x.head = some a ∧ (a = 0 ∨ 30 < a)) then some 5#8 else if 1 < x.enabled then some 6#8 else none) = some w →
        exec (.writeSection p) s = .next (s.restartSupervision.answer 41#8 ⟨.badField, [w]⟩))
    ∧ (∀ (p : Payload) (x : SectionFields) (free parented : Prop), readSectionFields p = some x → x.feeder = f.num → x.number = n →
      x.base ≤ 120000 → x.limit ≤ 120000 → x.parent ≤ 16 → (∀ a, x.head = some a → 1 ≤ a ∧ a ≤ 30) → x.enabled ≤ 1 →
      (free ↔ ((s.sections.get f).find n = none ∨ ∀ t ∈ s.tags, t.feeder = f → n ∉ t.scope)) →
      (parented ↔ (x.parent = 0 ∨ (x.parent ≠ n ∧ (s.sections.get f).find x.parent ≠ none
        ∧ n ∉ ancestors (s.sections.get f) x.parent))) →
      (x.limit < x.base → exec (.writeSection p) s = .next (s.restartSupervision.answer 41#8 ⟨.badField, [3#8]⟩))
      ∧ (x.base ≤ x.limit → s.huntRuns f = true →
        exec (.writeSection p) s = .next (s.restartSupervision.answer 41#8 ⟨.inUse, [0#8]⟩))
      ∧ (x.base ≤ x.limit → s.huntRuns f = false → ¬ free →
        exec (.writeSection p) s = .next (s.restartSupervision.answer 41#8 ⟨.inUse, [1#8]⟩))
      ∧ (x.base ≤ x.limit → s.huntRuns f = false → free → ¬ parented →
        exec (.writeSection p) s = .next (s.restartSupervision.answer 41#8 ⟨.badField, [4#8]⟩))
      ∧ (x.base ≤ x.limit → s.huntRuns f = false → free → parented →
        (∃ a, x.head = some a ∧ ((∀ d, s.link.devices.find a = some d → d.feeder ≠ f)
          ∨ ∃ g, ∃ q ∈ s.sections.get g, q.2.head = some a ∧ ¬ (g = f ∧ q.1 = n))) →
        exec (.writeSection p) s = .next (s.restartSupervision.answer 41#8 ⟨.badField, [5#8]⟩)))
    ∧ (∀ b c : Byte, (b = 0#8 ∨ 4 < b.toNat ∨ c = 0#8 ∨ 16 < c.toNat) →
      exec (.deleteSection [b, c]) s = .next (s.restartSupervision.answer 42#8 (refuse .badField)))
    ∧ ((s.sections.get f).find n = none →
      exec (.deleteSection [byte f.num, byte n]) s = .next (s.restartSupervision.answer 42#8 (refuse .notFound)))
    ∧ ((s.sections.get f).find n ≠ none →
      (s.huntRuns f = true ∨ (∃ t ∈ s.tags, t.feeder = f ∧ n ∈ t.scope) ∨ ∃ p ∈ s.sections.get f, p.2.parent = n) →
      exec (.deleteSection [byte f.num, byte n]) s = .next (s.restartSupervision.answer 42#8 (refuse .inUse)))
    ∧ ((s.sections.get f).find n ≠ none → s.huntRuns f = false → (∀ t ∈ s.tags, t.feeder = f → n ∉ t.scope) →
      (∀ p ∈ s.sections.get f, p.2.parent ≠ n) →
      exec (.deleteSection [byte f.num, byte n]) s = .next (State.answer { s.restartSupervision with
        sections := s.sections.set f ((s.sections.get f).filter (fun p => p.1 != n)) } 42#8 (ok [])))

/-! ## Hunts (08) -/

/-- A device of a feeder in a hunt's hands returned to the host (08 section 8.7): it desires what it has acknowledged, or NONE while a
position order to it is in flight, but the isolating device of FOUND keeps what it desires. -/
def Sys2Proof.devicesReturned (f : Feeder) (keep : Option Nat) (t : Table Device) : Table Device :=
  t.map (fun p => (p.1,
    if p.2.feeder = f ∧ p.2.owner = .hunt then
      if keep = some p.1 then { p.2 with owner := .host }
      else { p.2 with
        owner := .host
        posHeld := false
        desired := match p.2.inFlight with
          | some o => if o.code = .openSwitch ∨ o.code = .closeSwitch then none else p.2.ack
          | none => p.2.ack }
    else p.2))

/-- The number of the faulted section of a hunt. -/
def Sys2Proof.faultedSection (h : Hunt) : Option Nat :=
  (h.candidates.find? (fun c => decide (c.status = .faulted))).map (fun c => c.number)

/-- A hunt record made final with its devices returned and the HUNT_RESULT notice given (08 section 8.7). -/
def Sys2Proof.huntEnded (s : State) (f : Feeder) (h : Hunt) (final : HuntPhase) (detail : Option HuntDetail) : State :=
  { s with
    hunts := s.hunts.set f (some { h with
      phase := final
      detail := detail
      hold := none
      current := if final = .found then h.current else none
      named := [] })
    link := { s.link with
      devices := Sys2Proof.devicesReturned f (if final = .found then h.isolating else none) s.link.devices }
    att := s.att.give (.feeder f) (.huntResult final (Sys2Proof.faultedSection h) h.isolating h.used) }

/-- Every device of a list is acknowledged as desired, with no order in flight (08 section 8.2). -/
def Sys2Proof.allStand (t : Table Device) (ns : List Nat) : Prop :=
  ∀ a ∈ ns, ∃ d, t.find a = some d ∧ d.inFlight = none ∧ d.ack ≠ none ∧ d.ack = d.desired

/-- A hunt's close is issued (03 section 3.8): the close drive, the close-fail timer and the service. -/
def Sys2Proof.huntCloseIssued (s : State) (f : Feeder) (service : HuntService) (test : Bool) : State :=
  s.putSeq f { s.seq.get f with
    closeDrive := true
    closeFail := some (match s.constants f with
      | some k => k.closeFailTime
      | none => 1000)
    state := .hunt service
    huntTest := (s.seq.get f).huntTest || test }

/-- The least set of section numbers that holds a start and goes down through the sections that are let pass. -/
def Sys2Proof.leastDown (t : Table Section) (start : Nat → Prop) (through : Section → Prop) (ns : List Nat) : Prop :=
  (∀ m, start m → m ∈ ns)
  ∧ (∀ keep : Nat → Prop, (∀ m, start m → keep m) → (∀ p ∈ t, keep p.2.parent → through p.2 → keep p.1) → ∀ m ∈ ns, keep m)
  ∧ (t.length ≤ 16 → ∀ p ∈ t, p.2.parent ∈ ns → through p.2 → p.1 ∈ ns)

/-- START_HUNT, ABANDON_HUNT, READ_HUNT and DISMISS_HUNT (08 sections 8.3, 8.7 and 8.9): a start on a feeder in LOCKOUT seen OPEN with no
hunt-blocking cause and some candidate makes a record of HOST start with the candidates in hunt order and the group's test budget; an
abandoned hunt ends ABANDONED(HOST); a final record is dismissed; a feeder with no record is answered NOT_FOUND. How READ_HUNT lays out
the record is the model's (logs 14, 19 and 37). The end of a hunt (08 section 8.7) returns its devices, gives HUNT_RESULT, and the
Sequencer leaves HUNT by the drives and the position, with no trip element (log 22). The step (08 section 8.4) marks SKIPPED the candidates
whose test cannot keep the exclusion set dead, takes the first that is left, or begins the restore; it sets the desired positions of the
devices that it names, ends ABANDONED(LINK) on the first that cannot be ordered (log 25), and, when all match, asks the test close within
the block check and the budget. -/
def Obligations.HuntCommandsAnswer : Prop :=
  (∀ (s : State) (f : Feeder) (h : Hunt) (final : HuntPhase) (detail : Option HuntDetail) (r : Seq) (e : State),
    s.hunts.get f = some h → r = s.seq.get f → e = Sys2Proof.huntEnded s f h final detail →
    s.closeHunt f final detail = e
    ∧ s.endHunt f final detail =
      if r.tripDrive then e.putSeq f { r with state := .tripping .huntEnd false, tripElement := none, huntTest := false }
      else if r.position = .closed then e.putSeq f { r with
        state := .closed, shots := 0, tripElement := none, window := none, huntTest := false, closeDrive := false, closeFail := none }
      else (e.putSeq f { Sys2Proof.stopped r with state := .lockout .huntEnd, tripElement := none, closeDrive := false }).give
        (.feeder f) (.lockout .huntEnd r.shots))
  ∧ (∀ (s : State) (f : Feeder) (h : Hunt) (t : Table Section) (x : Exclusion) (mark : List Candidate → List Candidate),
    t = s.sections.get f → x = (s.cond.get f).exclusion →
    (∀ cs, mark cs = cs.map (fun c => if c.status = .pending then { c with status := .skipped } else c)) →
    ((∀ c ∈ h.candidates, c.status = .pending → skipped t x c.number = true) →
      s.takeStep f h = (State.putHunt s f (some { h with candidates := mark h.candidates, current := none })).beginRestore f
        { h with candidates := mark h.candidates, current := none })
    ∧ (∀ before c after, h.candidates = before ++ c :: after → c.status = .pending → skipped t x c.number = false →
      (∀ b ∈ before, b.status = .pending → skipped t x b.number = true) →
      s.takeStep f h = s.isolate f { h with candidates := mark before ++ c :: after, current := none } before.length c.number)
    ∧ (∀ n, skipped t x n = true ↔ x = .wholeFeeder ∨ ∃ ns, x = .sections ns ∧ ∃ m ∈ ns, m ∈ unavoidable t n)
    ∧ (∀ n, Sys2Proof.leastDown t (fun m => m = n) (fun y => y.head = none) (testSpan t n)
      ∧ Sys2Proof.leastDown t (fun m => m = n ∨ m ∈ ancestors t n ∨ ∃ y, (m, y) ∈ t ∧ y.parent = 0 ∧ y.head = none)
        (fun y => y.head = none) (unavoidable t n))
    ∧ (∀ n a, (a ∈ namedOpen t x n ↔ (∃ m ∈ testSpan t n, ∃ k y, (k, y) ∈ t ∧ y.parent = m ∧ headOf t k = some a)
        ∨ ∃ ns m, x = .sections ns ∧ m ∈ ns ∧ nearestHead t m = some a)
      ∧ (a ∈ namedClosed t n ↔ headOf t n = some a ∨ ∃ m ∈ ancestors t n, headOf t m = some a)))
  ∧ (∀ (s s1 : State) (f : Feeder) (h h1 : Hunt) (place n : Nat) (toOpen toClose : List Nat),
    toOpen = namedOpen (s.sections.get f) (s.cond.get f).exclusion n → toClose = namedClosed (s.sections.get f) n →
    h1 = { h with phase := .isolatingDevices, current := some place, named := h1.named } →
    h1.named = sortNums (toOpen ++ toClose) →
    s1 = { s with
      hunts := s.hunts.set f (some h1)
      link := { s.link with devices := s.link.devices.map (fun p => (p.1,
        if p.1 ∈ toClose then { p.2 with desired := some .closed, owner := .hunt, posHeld := false }
        else if p.1 ∈ toOpen then { p.2 with desired := some .opened, owner := .hunt, posHeld := false }
        else p.2)) } } →
    (∀ a, a ∈ h1.named ↔ a ∈ toOpen ∨ a ∈ toClose)
    ∧ (∀ a d, a ∈ h1.named → s.link.devices.find a = some d → d.reach ≠ .reachable →
      (∀ b ∈ h1.named, b < a → ∀ y, s.link.devices.find b = some y → y.reach = .reachable) →
      s.isolate f h place n = s1.endHunt f (.abandoned .link)
        (some (.device a (if d.reach = .local then .local else .unreachable))))
    ∧ ((∀ a ∈ h1.named, ∀ d, s.link.devices.find a = some d → d.reach = .reachable) →
      (Sys2Proof.allStand s1.link.devices h1.named → s.isolate f h place n = s1.isolated f h1)
      ∧ (¬ Sys2Proof.allStand s1.link.devices h1.named → s.isolate f h place n = s1)))
  ∧ (∀ (s : State) (f : Feeder) (h : Hunt),
    (∀ c, Sys2Proof.huntBlocker s f = some c → s.isolated f h = s.endHunt f (.abandoned .blocked) (some (.cause c)))
    ∧ (Sys2Proof.huntBlocker s f = none → h.used = h.budget → s.isolated f h = s.endHunt f (.abandoned .budget) none)
    ∧ (Sys2Proof.huntBlocker s f = none → h.used ≠ h.budget → (s.seq.get f).state = .hunt .idle →
      ((s.seq.get f).position = .opened → s.isolated f h = { Sys2Proof.huntCloseIssued s f .testClosing true with
        hunts := s.hunts.set f (some { h with phase := .testingClose, used := h.used + 1 }) })
      ∧ ((s.seq.get f).position ≠ .opened →
        s.isolated f h = s.endHunt f (.abandoned .position) (some (.breaker .notOpen)))))
  ∧ ∀ (s : State) (f : Feeder), s.port.phase = .ready →
    (∀ (r : Seq) (numbers : List Nat), r = s.seq.get f → numbers = candidatesOf (s.sections.get f) (s.locate f) →
      (((∀ c, r.state ≠ .lockout c) ∨ r.position ≠ .opened
          ∨ ∃ y, (s.causes f).has y = true ∧ y ≠ .seasonReclose) →
        exec (.startHunt [byte f.num]) s = .next (s.restartSupervision.answer 46#8 (refuse .wrongState)))
      ∧ (∀ c, r.state = .lockout c → r.position = .opened → (∀ y, (s.causes f).has y = true → y = .seasonReclose) →
        (numbers = [] → exec (.startHunt [byte f.num]) s = .next (s.restartSupervision.answer 46#8 (refuse .notFound)))
        ∧ (numbers ≠ [] → exec (.startHunt [byte f.num]) s
          = .next ((Sys2Proof.huntStarted s.restartSupervision f true numbers).answer 46#8 (ok [byte numbers.length])))
        ∧ (numbers ≠ [] → ∃ (t : State) (h : Hunt), exec (.startHunt [byte f.num]) s = .next (t.answer 46#8 (ok [byte numbers.length]))
          ∧ t.hunts.get f = some h ∧ h.hostStart = true ∧ h.location = s.locate f
          ∧ h.budget = (s.activeGroup f).testBudget ∧ h.candidates.map (·.number) = numbers
          ∧ (t.seq.get f).shots = 0
          ∧ (h.phase.final = true ↔ ∀ x, (t.seq.get f).state ≠ .hunt x)
          ∧ (∀ g, g ≠ f → t.seq.get g = s.seq.get g ∧ t.hunts.get g = s.hunts.get g))))
    ∧ (∀ h, s.hunts.get f = some h →
      (h.phase.final = true → exec (.abandonHunt [byte f.num]) s = .next (s.restartSupervision.answer 47#8 (refuse .wrongState)))
      ∧ (h.phase.final = false → ∃ t : State, exec (.abandonHunt [byte f.num]) s = .next (t.answer 47#8 (ok []))
        ∧ t.hunts.get f = some { h with
            phase := .abandoned .host, detail := none, hold := none, current := none, named := [] }
        ∧ ((s.seq.get f).tripDrive = true → t.seq.get f = { s.seq.get f with
            state := .tripping .huntEnd false, tripElement := none, huntTest := false })
        ∧ ((s.seq.get f).tripDrive = false → (s.seq.get f).position = .closed → t.seq.get f = { s.seq.get f with
            state := .closed, shots := 0, tripElement := none, window := none, huntTest := false
            closeDrive := false, closeFail := none })
        ∧ ((s.seq.get f).tripDrive = false → (s.seq.get f).position ≠ .closed → t.seq.get f = {
            Sys2Proof.stopped (s.seq.get f) with state := .lockout .huntEnd, tripElement := none, closeDrive := false })
        ∧ t.link = { s.link with devices := Sys2Proof.devicesReturned f none s.link.devices }
        ∧ (∀ p ∈ t.link.devices, p.2.feeder = f → p.2.owner = .host)
        ∧ (∀ a : Attention, a = s.restartSupervision.att.give (.feeder f)
            (.huntResult (.abandoned .host) (Sys2Proof.faultedSection h) h.isolating h.used) →
          t.att = if (s.seq.get f).tripDrive = false ∧ (s.seq.get f).position ≠ .closed then
            a.give (.feeder f) (.lockout .huntEnd (s.seq.get f).shots) else a)
        ∧ (∀ g, g ≠ f → t.seq.get g = s.seq.get g ∧ t.hunts.get g = s.hunts.get g)
        ∧ t.tags = s.tags ∧ t.cal = s.cal ∧ t.store = s.store ∧ t.cond = s.cond ∧ t.sections = s.sections)
      ∧ exec (.readHunt [byte f.num]) s = .next (s.restartSupervision.answer 48#8 (ok (huntBytes s.link.devices h)))
      ∧ (h.phase.final = true → exec (.dismissHunt [byte f.num]) s
        = .next (State.answer { s.restartSupervision with hunts := s.hunts.set f none } 49#8 (ok [])))
      ∧ (h.phase.final = false → exec (.dismissHunt [byte f.num]) s
        = .next (s.restartSupervision.answer 49#8 (refuse .wrongState))))
    ∧ (s.hunts.get f = none →
      exec (.abandonHunt [byte f.num]) s = .next (s.restartSupervision.answer 47#8 (refuse .notFound))
      ∧ exec (.readHunt [byte f.num]) s = .next (s.restartSupervision.answer 48#8 (refuse .notFound))
      ∧ exec (.dismissHunt [byte f.num]) s = .next (s.restartSupervision.answer 49#8 (refuse .notFound)))

/-- A hunt on the breaker (03 section 3.8, 08 sections 8.5, 8.6 and 8.8): a test close seen CLOSED starts the hold timer; when that has
run down (log 3) its expiry marks the PENDING candidates of the test span HEALTHY and asks HUNT_OPEN; the open seen is reported, and leads
to the next step, to the restore, or on a tripped restore close to ABANDONED(POSITION); a trip-fail expiry in OPENING ends the hunt
ABANDONED(POSITION) and leads to BREAKER_FAIL, and a close-fail expiry of a hunt close to LOCKOUT(CLOSE_FAIL); a change that no hunt
request asked for ends it ABANDONED(POSITION), with its alarm. That an OPEN in TEST_CLOSING and RESTORE_CLOSING, and one in IDLE from
TRAVEL or INVALID, is such a change is the model's reading (log 24); that the LOCKOUT or CLOSED in which the hunt ends clears the trip
element is another (log 22, from 03 section 3.2). The restore opens the isolating device, closes the other hunt-owned devices, and asks
the restore close when all match and no hunt-blocking cause stands, and else ends the hunt with the first such cause of the table (log
25). A hunt-blocking cause newly present ends the hunt but in RESTORING; a changed exclusion set marks candidates SKIPPED and takes the
step again, or opens the breaker where the test energises an excluded section (by the positions acknowledged, log 26). -/
def Obligations.HuntServesTheBreaker : Prop :=
  (∀ (f : Feeder) (s : State) (h : Hunt) (r : Seq) (opened closed : State),
    s.hunts.get f = some h → h.phase.final = false → r = s.seq.get f →
    opened = { s with contacts := s.contacts.set f ⟨false, true⟩ } →
    closed = { s with contacts := s.contacts.set f ⟨true, false⟩ } →
    (r.state = .hunt .testClosing → h.phase = .testingClose → r.position ≠ .closed →
      exec (.decodedPositionChange f ⟨true, false⟩) s = .next (({ closed with
        hunts := s.hunts.set f (some { h with
          phase := .testingHold, hold := some (s.activeGroup f).testHoldTime }) }).putSeq f { r with
        position := .closed, closeDrive := false, closeFail := none, state := .hunt .testClosed }))
    ∧ (r.state = .hunt .restoreClosing → h.phase = .restoringClose → r.position ≠ .closed →
      exec (.decodedPositionChange f ⟨true, false⟩) s = .next (State.endHunt (closed.putSeq f { r with
        position := .closed, closeDrive := false, closeFail := none, state := .hunt .idle }) f
        (if Sys2Proof.faultedSection h = none then .cleared else .found) none))
    ∧ (∀ m (h1 : Hunt), h.phase = .testingHold → h.hold = some 0 → h.currentSection = some m → r.state = .hunt .testClosed →
      h1 = { h with
        candidates := h.candidates.map (fun (c : Candidate) =>
          if c.status = CandidateStatus.pending ∧ c.number ∈ testSpan (s.sections.get f) m then ⟨c.number, .healthy⟩ else c)
        current := none
        hold := none
        phase := .isolatingOpen } →
      (r.position ≠ .opened → r.closeDrive = false → r.tripFail = none →
        exec (.holdTimerExpiry f) s = .next (({ s with hunts := s.hunts.set f (some h1) }).putSeq f { r with
          tripDrive := true, state := .hunt .opening, tripFail := some (Sys2Proof.tripTime s f) }))
      ∧ (r.position = .opened → exec (.holdTimerExpiry f) s = .next (State.takeStep
        (({ s with hunts := s.hunts.set f (some h1) }).putSeq f { r with
          closeDrive := false, closeFail := none, state := .hunt .idle, huntTest := false }) f h1)))
    ∧ ((h.phase ≠ .testingHold ∨ h.hold ≠ some 0) → exec (.holdTimerExpiry f) s = .next s)
    ∧ (r.state = .hunt .opening → r.position ≠ .opened → ∀ s1, s1 = opened.putSeq f { r with
        position := .opened, tripDrive := false, tripFail := none, state := .hunt .idle, huntTest := false } →
      (h.phase = .isolatingOpen → exec (.decodedPositionChange f ⟨false, true⟩) s = .next (s1.takeStep f h))
      ∧ (h.phase = .restoringOpen → exec (.decodedPositionChange f ⟨false, true⟩) s = .next (s1.beginRestore f h))
      ∧ (h.phase = .restoringClose → exec (.decodedPositionChange f ⟨false, true⟩) s
        = .next (s1.endHunt f (.abandoned .position) (some (.breaker .restoreTrip)))))
    ∧ (r.state = .hunt .opening → r.position ≠ .closed →
      exec (.decodedPositionChange f ⟨true, false⟩) s = .next (closed.putSeq f { r with position := .closed }))
    ∧ (r.state = .hunt .opening → r.tripFail = some 0 → exec (.tripFailExpiry f) s = .next (State.give
      ((Sys2Proof.huntEnded s f h (.abandoned .position) (some (.breaker .breakerFail))).putSeq f { r with
        state := .breakerFail .protection, tripFail := none, huntTest := false }) (.feeder f) (.breakerFail .protection)))
    ∧ ((r.state = .hunt .testClosing ∨ r.state = .hunt .restoreClosing) → r.closeFail = some 0 →
      exec (.closeFailExpiry f) s = .next (State.give (State.give
        ((Sys2Proof.huntEnded s f h (.abandoned .position) (some (.breaker .closeFail))).putSeq f { Sys2Proof.stopped r with
          state := .lockout .closeFail, tripElement := none, closeDrive := false })
        (.feeder f) (.lockout .closeFail r.shots)) (.feeder f) (.positionAlarm .closeFail)))
    ∧ ((r.state = .hunt .idle ∨ r.state = .hunt .testClosing ∨ r.state = .hunt .testClosed ∨ r.state = .hunt .restoreClosing) →
      r.position ≠ .opened → exec (.decodedPositionChange f ⟨false, true⟩) s = .next (State.give (State.give
        ((Sys2Proof.huntEnded opened f h (.abandoned .position) (some (.breaker .unaskedOpen))).putSeq f { Sys2Proof.stopped r with
          position := .opened, state := .lockout .externalOpen, tripElement := none, closeDrive := false })
        (.feeder f) (.lockout .externalOpen r.shots)) (.feeder f) (.positionAlarm .unaskedOpen)))
    ∧ ((r.state = .hunt .idle ∨ r.state = .hunt .testClosed) → r.position ≠ .closed →
      exec (.decodedPositionChange f ⟨true, false⟩) s = .next (State.give
        ((Sys2Proof.huntEnded closed f h (.abandoned .position) (some (.breaker .unaskedClose))).putSeq f { r with
          position := .closed, state := .closed, shots := 0, tripElement := none, window := none, huntTest := false })
        (.feeder f) (.positionAlarm .unaskedClose))))
  ∧ (∀ (s : State) (f : Feeder) (h : Hunt),
    (∀ n, Sys2Proof.faultedSection h = some n → nearestHead (s.sections.get f) n = none →
      s.beginRestore f h = s.endHunt f .found none)
    ∧ (∀ n a (h1 : Hunt) (s1 : State), Sys2Proof.faultedSection h = some n → nearestHead (s.sections.get f) n = some a →
      s1 = { s with
        hunts := s.hunts.set f (some h1)
        link := { s.link with devices := s.link.devices.map (fun p => (p.1,
          if p.1 = a then { p.2 with desired := some .opened, owner := .hunt, posHeld := false }
          else if p.2.feeder = f ∧ p.2.owner = .hunt ∧ p.2.desired = some .opened then
            { p.2 with desired := some .closed, posHeld := false }
          else p.2)) } } →
      h1 = { h with phase := .restoringDevices, isolating := some a, named := h1.named } →
      h1.named = sortNums (a :: (s1.link.devices.filter (fun p =>
        decide (p.2.feeder = f ∧ p.2.owner = .hunt ∧ p.2.desired = some .closed))).map (fun p => p.1)) →
      (Sys2Proof.allStand s1.link.devices h1.named → s.beginRestore f h = s1.askRestoreClose f h1)
      ∧ (¬ Sys2Proof.allStand s1.link.devices h1.named → s.beginRestore f h = s1))
    ∧ (∀ (h1 : Hunt) (s1 : State), Sys2Proof.faultedSection h = none →
      s1 = { s with
        hunts := s.hunts.set f (some h1)
        link := { s.link with devices := s.link.devices.map (fun p => (p.1,
          if p.2.feeder = f ∧ p.2.owner = .hunt ∧ p.2.desired = some .opened then
            { p.2 with desired := some .closed, posHeld := false }
          else p.2)) } } →
      h1 = { h with phase := .restoringDevices, current := none, named := (s1.link.devices.filter (fun p =>
        decide (p.2.feeder = f ∧ p.2.owner = .hunt))).map (fun p => p.1) } →
      (Sys2Proof.allStand s1.link.devices h1.named → s.beginRestore f h = s1.askRestoreClose f h1)
      ∧ (¬ Sys2Proof.allStand s1.link.devices h1.named → s.beginRestore f h = s1))
    ∧ (∀ c, Sys2Proof.huntBlocker s f = some c → s.askRestoreClose f h
      = s.endHunt f (if Sys2Proof.faultedSection h = none then .cleared else .found) (some (.cause c)))
    ∧ (Sys2Proof.huntBlocker s f = none → (s.seq.get f).state = .hunt .idle →
      ((s.seq.get f).position = .opened → s.askRestoreClose f h = { Sys2Proof.huntCloseIssued s f .restoreClosing false with
        hunts := s.hunts.set f (some { h with phase := .restoringClose }) })
      ∧ ((s.seq.get f).position ≠ .opened →
        s.askRestoreClose f h = s.endHunt f (.abandoned .position) (some (.breaker .notOpen)))))
  ∧ (∀ (s : State) (f : Feeder) (h : Hunt), s.hunts.get f = some h →
    (∀ c, (h.phase = .isolatingOpen ∨ h.phase = .isolatingDevices) →
      s.huntCause f c = s.endHunt f (.abandoned .blocked) (some (.cause c)))
    ∧ (∀ c, (h.phase = .testingClose ∨ h.phase = .testingHold) →
      s.huntCause f c = (s.huntOpen f).1.endHunt f (.abandoned .blocked) (some (.cause c)))
    ∧ (∀ c, h.phase ∉ [HuntPhase.isolatingOpen, .isolatingDevices, .testingClose, .testingHold] → s.huntCause f c = s)
    ∧ (∀ (t : Table Section) (x : Exclusion) (h1 : Hunt), t = s.sections.get f → x = (s.cond.get f).exclusion →
      h1 = { h with candidates := h.candidates.map (fun (c : Candidate) =>
        if c.status = CandidateStatus.pending ∧ skipped t x c.number = true then ⟨c.number, .skipped⟩ else c) } →
      (h.phase = .isolatingOpen → s.huntExclusion f = { s with hunts := s.hunts.set f (some h1) })
      ∧ (h.phase = .isolatingDevices → s.huntExclusion f = s.takeStep f h1)
      ∧ (∀ n, (h.phase = .testingClose ∨ h.phase = .testingHold) → h.currentSection = some n →
        ((skipped t x n = true ∨ x = .wholeFeeder ∨ ∃ ns, x = .sections ns ∧ ∃ m ∈ ns, m ∈ energised t s.link.devices n) →
          s.huntExclusion f = State.askOpen { s with hunts := s.hunts.set f (some { h1 with
            hold := none, current := none, phase := .isolatingOpen }) } f)
        ∧ (skipped t x n = false → (∀ ns, x = .sections ns → ∀ m ∈ ns, m ∉ energised t s.link.devices n) →
          s.huntExclusion f = { s with hunts := s.hunts.set f (some h1) })
        ∧ Sys2Proof.leastDown t (fun m => m ∈ testSpan t n ∨ m ∈ ancestors t n ∨ ∃ y, (m, y) ∈ t ∧ y.parent = 0
            ∧ (y.head = none ∨ ∃ a d, y.head = some a ∧ s.link.devices.find a = some d ∧ d.ack = some .closed))
          (fun y => y.head = none ∨ ∃ a d, y.head = some a ∧ s.link.devices.find a = some d ∧ d.ack = some .closed)
          (energised t s.link.devices n))
      ∧ (h.phase ∉ [HuntPhase.isolatingOpen, .isolatingDevices, .testingClose, .testingHold] → s.huntExclusion f = s)))
  ∧ (∀ (s : State) (f : Feeder) (r : Seq), r = s.seq.get f →
    (r.state = .hunt .opening → s.huntOpen f = (s, false))
    ∧ (r.state ≠ .hunt .opening → r.position = .opened → s.huntOpen f = (s.putSeq f { r with
      closeDrive := false, closeFail := none, state := .hunt .idle, huntTest := false }, true))
    ∧ (r.state ≠ .hunt .opening → r.position ≠ .opened → s.huntOpen f = (s.putSeq f { r with
      tripDrive := true
      closeDrive := false
      closeFail := if r.closeDrive then none else r.closeFail
      state := .hunt .opening
      tripFail := match r.tripFail with
        | some n => some n
        | none => some (Sys2Proof.tripTime s f) }, false)))

/-! ## The pole link (09) -/

/-- WRITE_DEVICE by its six checks in order, and where they pass (09 section 9.2): a new record owned by the host with no desire, UNKNOWN
and REACHABLE, or a rewrite that keeps the desired position and the owner; new or rewritten, a RECLOSER's desired block is set from the
wish of its feeder. That a rewrite keeps the last tag sent is the model's choice (log 45). DELETE_DEVICE takes the record out unless the
device heads a section, is a relay, or has an order in flight or a resend waiting; READ_DEVICE gives the record, laid out as log 14 says.
An address out of range is refused BAD_FIELD, and one that no record bears is answered NOT_FOUND. -/
def Obligations.DeviceCommandsAnswer : Prop :=
  ∀ (s : State) (a : Nat), s.port.phase = .ready → 1 ≤ a → a ≤ 30 →
    (∀ (p : Payload) (x : DeviceFields), readDeviceFields p = some x →
      (x.address = 0 ∨ 30 < x.address ∨ x.feeder = 0 ∨ 4 < x.feeder ∨ 1 < x.kind ∨ x.tier = 0 ∨ 2 < x.tier
        ∨ (x.tier = 1 ∧ x.relay ≠ none) ∨ (x.tier = 2 ∧ x.relay = none)) →
      exec (.writeDevice p) s = .next (s.restartSupervision.answer 50#8 (refuse .badField)))
    ∧ (∀ (f : Feeder) (k : DeviceKind) (relay : Option Nat) (p : Payload) (t : Table Device) (room relays free stays unnamed : Prop),
      p = [byte a, byte f.num, byte k.place, if relay.isSome then 2#8 else 1#8] ++ opt be1 relay → t = s.link.devices →
      (∀ r, relay = some r → r ≤ 255) →
      (room ↔ (t.find a = none → t.length < 24)) →
      (relays ↔ ∀ r, relay = some r → r ≠ a ∧ ∃ e, t.find r = some e ∧ e.relay = none ∧ e.feeder = f) →
      (free ↔ ∀ e, t.find a = some e → e.inFlight = none ∧ a ∉ s.link.resends ∧ e.owner = .host) →
      (stays ↔ ∀ e, t.find a = some e → e.feeder ≠ f → ∀ g, ∀ q ∈ s.sections.get g, q.2.head ≠ some a) →
      (unnamed ↔ ∀ e, t.find a = some e → e.relay = none → (relay ≠ none ∨ e.feeder ≠ f) →
        ∀ q ∈ t, q.1 ≠ a → q.2.relay ≠ some a) →
      (¬ room → exec (.writeDevice p) s = .next (s.restartSupervision.answer 50#8 (refuse .full)))
      ∧ (room → ¬ relays → exec (.writeDevice p) s = .next (s.restartSupervision.answer 50#8 (refuse .badField)))
      ∧ (room → relays → ¬ (free ∧ stays ∧ unnamed) →
        exec (.writeDevice p) s = .next (s.restartSupervision.answer 50#8 (refuse .inUse)))
      ∧ (room → relays → free → stays → unnamed → ∃ t : State, exec (.writeDevice p) s = .next t ∧ t.port.buffer = ⟨.ok, 50#8, []⟩))
    ∧ (∀ b : Byte, (b.toNat = 0 ∨ 30 < b.toNat) →
      exec (.readDevice [b]) s = .next (s.restartSupervision.answer 52#8 (refuse .badField))
      ∧ exec (.deleteDevice [b]) s = .next (s.restartSupervision.answer 51#8 (refuse .badField)))
    ∧ (∀ (f : Feeder) (k : DeviceKind) (relay : Option Nat) (d : Device),
      (∀ r, relay = some r → r ≠ a ∧ r ≤ 255 ∧ ∃ e, s.link.devices.find r = some e ∧ e.relay = none ∧ e.feeder = f) →
      ((s.link.devices.find a = none ∧ s.link.devices.length < 24 ∧ d.desired = none ∧ d.owner = .host ∧ d.lastTag = none
          ∧ d.inFlight = none)
        ∨ (∃ e, s.link.devices.find a = some e ∧ e.inFlight = none ∧ a ∉ s.link.resends ∧ e.owner = .host
          ∧ (e.feeder = f ∨ ∀ g, ∀ p ∈ s.sections.get g, p.2.head ≠ some a)
          ∧ (e.relay ≠ none ∨ (relay = none ∧ e.feeder = f) ∨ ∀ p ∈ s.link.devices, p.1 ≠ a → p.2.relay ≠ some a)
          ∧ d.desired = e.desired ∧ d.owner = .host ∧ d.lastTag = e.lastTag ∧ d.inFlight = none)) →
      d = { d with
        feeder := f
        kind := k
        relay := relay
        ack := none
        ackBlock := none
        desiredBlock := if k = .recloser then some (if (s.cond.get f).wish then .blocked else .unblocked) else none
        posHeld := false
        blockHeld := false
        reach := .reachable
        probe := none
        probeDue := false } →
      exec (.writeDevice ([byte a, byte f.num, byte k.place, if relay.isSome then 2#8 else 1#8] ++ opt be1 relay)) s
        = .next ((s.restartSupervision.putDevices (s.link.devices.put a d)).answer 50#8 (ok [])))
    ∧ (∀ d, s.link.devices.find a = some d →
      exec (.readDevice [byte a]) s = .next (s.restartSupervision.answer 52#8 (ok (deviceBytes a d)))
      ∧ (((∃ f, ∃ p ∈ s.sections.get f, p.2.head = some a) ∨ (∃ p ∈ s.link.devices, p.1 ≠ a ∧ p.2.relay = some a)
          ∨ d.inFlight ≠ none ∨ a ∈ s.link.resends) →
        exec (.deleteDevice [byte a]) s = .next (s.restartSupervision.answer 51#8 (refuse .inUse)))
      ∧ ((∀ f, ∀ p ∈ s.sections.get f, p.2.head ≠ some a) → (∀ p ∈ s.link.devices, p.1 ≠ a → p.2.relay ≠ some a) →
        d.inFlight = none → a ∉ s.link.resends →
        exec (.deleteDevice [byte a]) s = .next ((s.restartSupervision.putDevices
          (s.link.devices.filter (fun p => p.1 != a))).answer 51#8 (ok []))))
    ∧ (s.link.devices.find a = none →
      exec (.readDevice [byte a]) s = .next (s.restartSupervision.answer 52#8 (refuse .notFound))
      ∧ exec (.deleteDevice [byte a]) s = .next (s.restartSupervision.answer 51#8 (refuse .notFound)))

/-- ORDER_SWITCH sets a host-owned device's desired position and clears its held-back mark (09 section 9.2); SET_LINK_LIMIT takes 1, 2 or 4,
at least the orders in flight (09 section 9.3); LINK_CLEAR drops every order and resend, sets every record to UNKNOWN and REACHABLE with
its desires and owner kept, and makes the clear frame wait (09 section 9.6); of this a hunt that owns a device is told, feeder by feeder,
and judges its needed set afresh (08 section 8.2): the acknowledged positions, all UNKNOWN, match nothing, so that only a hunt that awaits
an empty set asks for its close again (log 38), and with no such hunt nothing else changes. -/
def Obligations.LinkCommandsAnswer : Prop :=
  ∀ s : State, s.port.phase = .ready →
    (∀ (a : Nat) (x : Option SwitchPos), 1 ≤ a → a ≤ 30 →
      exec (.orderSwitch [byte a, byte (match x with
        | some .opened => 0
        | some .closed => 1
        | none => 2)]) s = .next (match s.link.devices.find a with
          | none => s.restartSupervision.answer 54#8 (refuse .notFound)
          | some d =>
            if d.owner = .hunt then s.restartSupervision.answer 54#8 (refuse .inUse)
            else (s.restartSupervision.putDevices (s.link.devices.map (fun p =>
              if p.1 = a then (p.1, { p.2 with desired := x, posHeld := false }) else p))).answer 54#8 (ok [])))
    ∧ (∀ a v : Byte, (a.toNat = 0 ∨ 30 < a.toNat ∨ 2 < v.toNat) →
      exec (.orderSwitch [a, v]) s = .next (s.restartSupervision.answer 54#8 (refuse .badField)))
    ∧ (∀ n ∈ [1, 2, 4], exec (.setLinkLimit [byte n]) s = .next (
        if n < (s.link.devices.filter (fun p => p.2.inFlight.isSome)).length then
          s.restartSupervision.answer 55#8 (refuse .wrongState)
        else State.answer { s.restartSupervision with link := { s.link with limit := n } } 55#8 (ok [])))
    ∧ (∀ b : Byte, b ≠ 1#8 → b ≠ 2#8 → b ≠ 4#8 →
      exec (.setLinkLimit [b]) s = .next (s.restartSupervision.answer 55#8 (refuse .badField)))
    ∧ (∀ c : State, c = { s.restartSupervision with
        link := { s.link with
          devices := s.link.devices.map (fun p => (p.1, { p.2 with
            ack := none
            ackBlock := none
            posHeld := false
            blockHeld := false
            inFlight := none
            lastTag := none
            reach := .reachable
            probe := none
            probeDue := false }))
          clearWaits := true
          resends := [] } } →
      exec (.linkClear []) s = .next (([Ix4.n1, .n2, .n3, .n4].foldl (fun u f => match u.hunts.get f with
        | some h =>
          if h.named = [] ∧ (u.link.devices.any (fun p => decide (p.2.feeder = f ∧ p.2.owner = .hunt))) = true then
            if h.phase = .isolatingDevices then u.isolated f h
            else if h.phase = .restoringDevices then u.askRestoreClose f h
            else u
          else u
        | none => u) c).answer 56#8 (ok []))
      ∧ ((∀ f h, s.hunts.get f = some h → (h.phase = .isolatingDevices ∨ h.phase = .restoringDevices) → h.named ≠ []) →
        exec (.linkClear []) s = .next (c.answer 56#8 (ok []))))

/-- What the transmitter sends and when (09 sections 9.3, 9.4 and 9.6): nothing starts while it is SENDING or the carrier is there; a
waiting clear frame goes first, then the waiting resends in order with their code and tag, then a new order of the lowest class in which
an eligible device needs service, below the limit, with its tag and send count 1; a frame-sent event starts the reply timer of the order
sent, 400 ms in tier 1 and 1000 ms in tier 2. The four classes are the positions that hunts desire, a RECLOSER's block, the positions that
the host desires, and the probe. The carrier is an operand (log 6), and the start of each frame is a command of its own (log 43). That the
last tag sent is set by the frame-sent event also where the order has ended or been dropped meanwhile is the model's reading (log 27). -/
def Obligations.TheLinkSendsByPriority : Prop :=
  (∀ d : Device, (d.needs .huntPosition = true ↔ d.owner = .hunt ∧ d.desired ≠ none ∧ d.desired ≠ d.ack ∧ d.posHeld = false
      ∧ d.reach = .reachable)
    ∧ (d.needs .block = true ↔ d.kind = .recloser ∧ d.desiredBlock ≠ none ∧ d.desiredBlock ≠ d.ackBlock ∧ d.blockHeld = false
      ∧ d.reach = .reachable)
    ∧ (d.needs .hostPosition = true ↔ d.owner = .host ∧ d.desired ≠ none ∧ d.desired ≠ d.ack ∧ d.posHeld = false
      ∧ d.reach = .reachable)
    ∧ (d.needs .probe = true ↔ (d.reach = .unreachable ∨ d.reach = .local) ∧ d.probeDue = true)
    ∧ (d.desired = some .opened → d.orderFor .huntPosition = .openSwitch ∧ d.orderFor .hostPosition = .openSwitch)
    ∧ (d.desired = some .closed → d.orderFor .huntPosition = .closeSwitch ∧ d.orderFor .hostPosition = .closeSwitch)
    ∧ (d.desiredBlock = some .blocked → d.orderFor .block = .blockReclose)
    ∧ (d.desiredBlock = some .unblocked → d.orderFor .block = .unblockReclose)
    ∧ d.orderFor .probe = .status) ∧
  (∀ (s : State) (c : Bool), (s.link.sending ≠ none ∨ c = true) →
    exec (.clearFrame c) s = .next { s with link := { s.link with carrier := c } }
    ∧ exec (.resend c) s = .next { s with link := { s.link with carrier := c } }
    ∧ exec (.arbiterChoice c) s = .next { s with link := { s.link with carrier := c } })
  ∧ (∀ s : State, s.link.sending = none →
    (s.link.clearWaits = true →
      exec (.clearFrame false) s = .next { s with link := { s.link with
        carrier := false, sending := some .clear, clearWaits := false } }
      ∧ exec (.resend false) s = .next { s with link := { s.link with carrier := false } }
      ∧ exec (.arbiterChoice false) s = .next { s with link := { s.link with carrier := false } })
    ∧ (s.link.clearWaits = false →
      exec (.clearFrame false) s = .next { s with link := { s.link with carrier := false } }
      ∧ (s.link.resends = [] → exec (.resend false) s = .next { s with link := { s.link with carrier := false } })
      ∧ (∀ a rest d o, s.link.resends = a :: rest → s.link.devices.find a = some d → d.inFlight = some o →
        exec (.resend false) s = .next { s with link := { s.link with
          carrier := false, sending := some (.order a (d.relay.getD 0) o.code o.tag), resends := rest } }
        ∧ exec (.arbiterChoice false) s = .next { s with link := { s.link with carrier := false } })
      ∧ (s.link.limit ≤ (s.link.devices.filter (fun p => p.2.inFlight.isSome)).length →
        exec (.arbiterChoice false) s = .next { s with link := { s.link with carrier := false } })
      ∧ (s.link.resends = [] → (s.link.devices.filter (fun p => p.2.inFlight.isSome)).length < s.link.limit →
        s.link.devices.sorted = true →
        ((∀ p ∈ s.link.devices, ∀ k ∈ ServiceClass.all, p.2.inFlight = none → p.2.needs k = false) →
          exec (.arbiterChoice false) s = .next { s with link := { s.link with carrier := false } })
        ∧ (∀ k a d o, s.link.devices.find a = some d → d.inFlight = none → d.needs k = true →
          (∀ p ∈ s.link.devices, ∀ l, l.index.num < k.index.num → p.2.inFlight = none → p.2.needs l = false) →
          (∀ last, last = (s.link.lastChosen.get k.index).getD 0 →
            (∀ p ∈ s.link.devices, p.2.inFlight = none → p.2.needs k = true →
              if last < a then (last < p.1 → a ≤ p.1) else (p.1 ≤ last ∧ a ≤ p.1))) →
          o = (⟨d.orderFor k, if d.lastTag = some s.link.tagCounter then (s.link.tagCounter + 1) % 16 else s.link.tagCounter,
            1, none⟩ : Order) →
          exec (.arbiterChoice false) s = .next { s with link := { s.link with
            carrier := false
            devices := s.link.devices.map (fun p => if p.1 = a then (p.1, { p.2 with
              inFlight := some o, probeDue := p.2.probeDue && decide (k ≠ .probe) }) else p)
            sending := some (.order a (d.relay.getD 0) o.code o.tag)
            tagCounter := (o.tag + 1) % 16
            lastChosen := s.link.lastChosen.set k.index (some a) } }))))
  ∧ (∀ s : State, (s.link.sending = none → exec .frameSent s = .next s)
    ∧ (s.link.sending = some .clear → exec .frameSent s = .next { s with link := { s.link with sending := none } })
    ∧ (∀ a r k n, s.link.sending = some (.order a r k n) → exec .frameSent s = .next { s with link := { s.link with
      sending := none
      devices := s.link.devices.map (fun p => if p.1 = a then (p.1, { p.2 with
        lastTag := some n
        inFlight := match p.2.inFlight with
          | some o => some (if o.tag = n then
              { o with timer := some (match p.2.relay with
                | none => 400
                | some _ => 1000) } else o)
          | none => none }) else p) } }))

/-- A reply and the two timers of a device (09 sections 9.1, 9.4 and 9.5, 11 section 11.5). A frame cut short, of a length other than 7,
whose CRC-16 fails or whose result or position is not named, one whose address no record bears, one to a device with no order in flight or
another tag, and for a RECLOSER one whose block byte is not named, are discarded: only the carrier has dropped. DONE sets the acknowledged
states and the device REACHABLE; REFUSED gives LINK_FAULT and holds back a desire that is still unmet; LOCAL gives it and starts the probe
timer. The first reply timeout makes the order wait for its one resend, and the second gives NO_REPLY and loses the device; a probe timer's
expiry makes a probe due; each acts when its timer has run down, and at no other moment (log 3). Of a device that a hunt owns the Hunt Unit
is told: a trouble on a device named for the step ends the hunt ABANDONED(LINK), in TESTING after HUNT_OPEN and also for a position moved
away (the trouble first where one reply brings both, log 25); and else, on whichever device, a hunt that awaits DEVICES judges its needed
set afresh, and asks for its close where all of it stands (08 sections 8.2 and 8.8). That the drop of a probe to a device UNREACHABLE
already is no trouble is the model's (log 47). -/
def Obligations.RepliesAndTimeoutsEndOrders : Prop :=
  (∀ (frame : List Byte) (cut : Bool) (s : State), ∃ t, exec (.replyFrame frame cut) s = .next t ∧ t.link.carrier = false
    ∧ t.pending = s.pending ∧ t.port = s.port ∧ t.store = s.store ∧ t.tags = s.tags ∧ t.cal = s.cal ∧ t.cond = s.cond)
  ∧ (∀ (frame : List Byte) (cut : Bool) (s : State),
    (cut = true ∨ frame.length ≠ 7 ∨ crcChecks frame = false ∨ (∃ b, frame[2]? = some b ∧ 2 < b.toNat)
      ∨ ∃ b, frame[3]? = some b ∧ 1 < b.toNat) →
    exec (.replyFrame frame cut) s = .next { s with link := { s.link with carrier := false } })
  ∧ (∀ (a t r p b : Byte) (cut : Bool) (s : State),
    (∀ d, s.link.devices.find a.toNat = some d → d.inFlight = none ∨ (∃ o, d.inFlight = some o ∧ o.tag ≠ t.toNat)
      ∨ (d.kind = .recloser ∧ 1 < b.toNat)) →
    exec (.replyFrame (withCrc [a, t, r, p, b]) cut) s = .next { s with link := { s.link with carrier := false } })
  ∧ (∀ (s : State) (a n : Nat) (pos : SwitchPos) (result : Nat) (b : Byte) (block : BlockPos) (d : Device) (o : Order) (frame : List Byte)
      (ends : Device → State) (tell : State → Option DeviceTrouble → State), a ≤ 30 → n ≤ 15 → result ≤ 2 →
    frame = withCrc [byte a, byte n, byte result, byte (match pos with
      | .opened => 0
      | .closed => 1), b] →
    s.link.devices.find a = some d → d.inFlight = some o → (d.kind = .recloser → b = match block with
      | .unblocked => 0#8
      | .blocked => 1#8) →
    (∀ x w, tell x w = if d.owner = .hunt then x.huntDevice d.feeder a w
      (if d.ack = some pos ∨ d.desired = some pos then none else some (match pos with
        | .opened => .ackOpened
        | .closed => .ackClosed)) else x) →
    (∀ e, ends e = { s with link := { s.link with
      carrier := false
      devices := s.link.devices.map (fun p => if p.1 = a then (p.1, e) else p)
      resends := s.link.resends.filter (fun b => b != a) } }) →
    (∀ e, o.tag = n → e = { d with
        inFlight := none
        ack := some pos
        ackBlock := if d.kind = .recloser then some block else none
        reach := .reachable
        probe := none
        probeDue := false } →
      ((result = 0 ∨ (result = 1 ∧ o.code = .status)) → exec (.replyFrame frame false) s = .next (tell (ends e) none))
      ∧ (result = 1 → o.code ≠ .status → exec (.replyFrame frame false) s = .next (tell { ends { e with
          posHeld := d.posHeld || (decide (o.code = .openSwitch ∨ o.code = .closeSwitch)
            && decide (d.desired ≠ none ∧ d.desired ≠ some pos))
          blockHeld := d.blockHeld || (decide (o.code = .blockReclose ∨ o.code = .unblockReclose)
            && decide (d.desiredBlock ≠ none ∧ d.desiredBlock ≠ e.ackBlock)) } with
        att := s.att.give (.feeder d.feeder) (.linkFault a .refused) } (some .refused)))
      ∧ (result = 2 → exec (.replyFrame frame false) s = .next (tell { ends { e with
          reach := .local, probe := some 30000 } with
        att := s.att.give (.feeder d.feeder) (.linkFault a .local) } (some .local)))))
  ∧ (∀ (s : State) (a : Nat) (d : Device) (o : Order), s.link.devices.find a = some d → d.inFlight = some o →
    o.timer = some 0 →
    (o.sends = 1 → exec (.replyTimerExpiry a) s = .next { s with link := { s.link with
      devices := s.link.devices.map (fun p => if p.1 = a then (p.1, { p.2 with
        inFlight := some { o with sends := 2, timer := none } }) else p)
      resends := s.link.resends ++ [a] } })
    ∧ (∀ t : State, o.sends = 2 → t = { s with
      link := { s.link with
        devices := s.link.devices.map (fun p => if p.1 = a then (p.1, { d with
          inFlight := none
          ack := none
          ackBlock := none
          reach := .unreachable
          probe := some 30000
          probeDue := false }) else p)
        resends := s.link.resends.filter (fun b => b != a) }
      att := s.att.give (.feeder d.feeder) (.linkFault a .noReply) } →
      exec (.replyTimerExpiry a) s = .next (if d.owner = .hunt then t.huntDevice d.feeder a
        (if d.reach = .unreachable then none else some .unreachable) none else t)))
  ∧ (∀ (s : State) (a : Nat), (∀ d, s.link.devices.find a = some d → ∀ o, d.inFlight = some o → o.timer ≠ some 0) →
    exec (.replyTimerExpiry a) s = .next s)
  ∧ (∀ (s : State) (a : Nat) (d : Device), s.link.devices.find a = some d → d.probe = some 0 →
    (d.reach ≠ .reachable → exec (.probeTimerExpiry a) s = .next { s with link := { s.link with
      devices := s.link.devices.map (fun p => if p.1 = a then (p.1, { p.2 with probe := none, probeDue := true }) else p) } })
    ∧ (d.reach = .reachable → exec (.probeTimerExpiry a) s = .next s))
  ∧ (∀ (s : State) (a : Nat), (∀ d, s.link.devices.find a = some d → d.probe ≠ some 0) →
    exec (.probeTimerExpiry a) s = .next s)
  ∧ (∀ (s : State) (a : Nat), (∃ t, exec (.replyTimerExpiry a) s = .next t ∧ t.link.sending = s.link.sending
      ∧ t.pending = s.pending ∧ t.port = s.port ∧ t.store = s.store ∧ t.tags = s.tags ∧ t.cal = s.cal ∧ t.cond = s.cond)
    ∧ ∃ t, exec (.probeTimerExpiry a) s = .next t ∧ t = { s with link := { s.link with devices := t.link.devices } })
  ∧ (∀ (s : State) (f : Feeder) (a : Nat) (w m : Option DeviceTrouble),
    (s.hunts.get f = none → s.huntDevice f a w m = s)
    ∧ (∀ h, s.hunts.get f = some h →
      (h.phase ∉ [HuntPhase.isolatingDevices, .restoringDevices, .testingClose, .testingHold] → s.huntDevice f a w m = s)
      ∧ (a ∉ h.named → (h.phase = .testingClose ∨ h.phase = .testingHold) → s.huntDevice f a w m = s)
      ∧ (a ∈ h.named → (h.phase = .testingClose ∨ h.phase = .testingHold) →
        (∀ x, (w = some x ∨ (w = none ∧ m = some x)) →
          s.huntDevice f a w m = (s.huntOpen f).1.endHunt f (.abandoned .link) (some (.device a x)))
        ∧ (w = none → m = none → s.huntDevice f a w m = s))
      ∧ ((h.phase = .isolatingDevices ∨ h.phase = .restoringDevices) →
        (∀ x, a ∈ h.named → w = some x → s.huntDevice f a w m = s.endHunt f (.abandoned .link) (some (.device a x)))
        ∧ ((a ∉ h.named ∨ w = none) → ¬ Sys2Proof.allStand s.link.devices h.named → s.huntDevice f a w m = s)
        ∧ ((a ∉ h.named ∨ w = none) → Sys2Proof.allStand s.link.devices h.named → s.huntDevice f a w m =
          if h.phase = .isolatingDevices then s.isolated f h else s.askRestoreClose f h))))

/-! ## Attention (10) -/

/-- SET_ATTENTION_LEVEL, SET_MASK_LEVEL and FETCH_ATTENTION (10 sections 10.1 and 10.2): a level or the mask is written and the line judged
afresh; a fetch takes the notice of highest level, first by kind and then by scope among equals, hands it over with the number left, and
answers NONE when none is pending (the byte of NONE is the model's reading, log 19). What giving a notice does: at level 0 of its kind
nothing; where a notice of its kind and scope is pending, that one takes its details and its repeat count rises by one, to 255 at most;
and else it enters the pending set with repeat count 0. The other notices stay, and the line is judged afresh. That the pending set is a
list in the order of kind and scope is the model's. -/
def Obligations.AttentionCommandsAnswer : Prop :=
  ∀ (s : State) (line : Levels → Nat → List Notice → Bool), s.port.phase = .ready →
    (∀ levels mask notices, line levels mask notices = notices.any (fun n => decide (mask < levels.get n.detail.kind))) →
    (∀ (a : Attention) (sc : Machine.Scope) (d : Detail),
      (a.levels.get d.kind = 0 → a.give sc d = a)
      ∧ (a.levels.get d.kind ≠ 0 →
        a.ordered = true →
        (∀ before after n, a.notices = before ++ n :: after → n.scope = sc → n.detail.kind = d.kind → a.give sc d = { a with
          notices := before ++ ⟨sc, d, min 255 (n.repeats + 1)⟩ :: after
          line := line a.levels a.mask (before ++ ⟨sc, d, min 255 (n.repeats + 1)⟩ :: after) })
        ∧ ((∀ n ∈ a.notices, n.scope = sc → n.detail.kind ≠ d.kind) → ∃ before after, a.notices = before ++ after
          ∧ a.give sc d = { a with
            notices := before ++ ⟨sc, d, 0⟩ :: after
            line := line a.levels a.mask (before ++ ⟨sc, d, 0⟩ :: after) }
          ∧ (∀ m ∈ before, noticeKey m.detail.kind m.scope < noticeKey d.kind sc)
          ∧ (∀ m ∈ after, noticeKey d.kind sc < noticeKey m.detail.kind m.scope))))
    ∧ (∀ (k : NoticeKind) (l : Nat), k ≠ .supervision → l ≤ 7 →
      exec (.setAttentionLevel [byte k.place, byte l]) s = .next (State.answer { s.restartSupervision with
        att := { s.restartSupervision.att with
          levels := s.att.levels.set k l
          line := line (s.att.levels.set k l) s.att.mask s.att.notices } } 58#8 (ok []))
      ∧ ∀ j, (s.att.levels.set k l).get j = if j = k then l else s.att.levels.get j)
    ∧ (∀ k l : Byte, (k = 0#8 ∨ 12 < k.toNat ∨ 7 < l.toNat) →
      exec (.setAttentionLevel [k, l]) s = .next (s.restartSupervision.answer 58#8 (refuse .badField)))
    ∧ (∀ m, m ≤ 7 → exec (.setMaskLevel [byte m]) s = .next (State.answer { s.restartSupervision with
        att := { s.restartSupervision.att with mask := m, line := line s.att.levels m s.att.notices } } 59#8 (ok [])))
    ∧ (∀ m : Byte, 7 < m.toNat → exec (.setMaskLevel [m]) s = .next (s.restartSupervision.answer 59#8 (refuse .badField)))
    ∧ (s.att.notices = [] → exec (.fetchAttention []) s = .next (s.restartSupervision.answer 60#8 (ok [13#8, 0#8])))
    ∧ (∀ (before after : List Notice) (n : Notice), s.att.notices = before ++ n :: after →
      s.noticesSound = true →
      (∀ k, s.att.levels.get k ≤ 7) →
      (∀ m ∈ before, s.att.levels.get m.detail.kind < s.att.levels.get n.detail.kind) →
      (∀ m ∈ after, s.att.levels.get m.detail.kind ≤ s.att.levels.get n.detail.kind) →
      exec (.fetchAttention []) s = .next (State.answer { s.restartSupervision with
        att := { s.restartSupervision.att with
          notices := before ++ after
          line := line s.att.levels s.att.mask (before ++ after) } } 60#8
        (ok ([byte n.detail.kind.place, byte n.scope.place, byte (s.att.levels.get n.detail.kind)] ++ detailBytes n.detail
          ++ [byte n.repeats, byte (before ++ after).length]))))

/-- Host supervision (10 section 10.3): SET_SUPERVISION takes a period of 0 to 60 s and an action, unless it would weaken FALLBACK; an
expiry, which acts when the timer has run down and at no other moment (log 3), raises the count, restarts the timer, at the second in a
row under FALLBACK sets the latch and derives every feeder, and then gives SUPERVISION. -/
def Obligations.SupervisionWatchesTheHost : Prop :=
  (∀ (s : State) (n : Nat) (a : SupervisionAction), s.port.phase = .ready → n ≤ 60 →
    ((s.att.action = .fallback ∧ (a = .alert ∨ n = 0)) →
      exec (.setSupervision [byte n, byte a.place]) s = .next (s.restartSupervision.answer 62#8 (refuse .wrongState)))
    ∧ ((s.att.action = .alert ∨ (a = .fallback ∧ 1 ≤ n)) →
      exec (.setSupervision [byte n, byte a.place]) s = .next (State.answer { s with
        att := { s.att with
          period := n
          action := a
          timer := if n = 0 then none else some (n * 1000)
          expiries := 0 } } 62#8 (ok []))))
  ∧ (∀ (s : State) (n a : Byte), s.port.phase = .ready → (60 < n.toNat ∨ 1 < a.toNat) →
    exec (.setSupervision [n, a]) s = .next (s.restartSupervision.answer 62#8 (refuse .badField)))
  ∧ (∀ s : State, s.att.timer ≠ some 0 → exec .supervisionExpiry s = .next s)
  ∧ (∀ (s c : State), s.att.timer = some 0 →
    c = { s with att := { s.att with
      expiries := min 255 (s.att.expiries + 1)
      timer := if s.att.period = 0 then none else some (s.att.period * 1000) } } →
    ((s.att.action = .alert ∨ s.att.expiries ≠ 1 ∨ s.latch = true) →
      exec .supervisionExpiry s = .next { c with
        att := c.att.give .part (.supervision (min 255 (s.att.expiries + 1)) s.latch) })
    ∧ (s.att.action = .fallback → s.att.expiries = 1 → s.latch = false → ∃ t,
      t = State.deriveMany { c with latch := true } [.n1, .n2, .n3, .n4] ∧ t.latch = true
      ∧ exec .supervisionExpiry s = .next { t with att := t.att.give .part (.supervision 2 true) }))
end

