-- ==== Sys2Proof/Laws/State.lean ====
section
/-! SUPPORT. What each record update of Machine/Ops.lean and of the command files leaves in each field of State. -/

namespace Sys2Proof.Machine

/-! ## putSeq -/

@[simp] theorem State.putSeq_pending (s : State) (f : Feeder) (r : Seq) : (s.putSeq f r).pending = s.pending := rfl
@[simp] theorem State.putSeq_contacts (s : State) (f : Feeder) (r : Seq) : (s.putSeq f r).contacts = s.contacts := rfl
@[simp] theorem State.putSeq_backup (s : State) (f : Feeder) (r : Seq) : (s.putSeq f r).backup = anyFailed (s.seq.set f r) := rfl
@[simp] theorem State.putSeq_sample (s : State) (f : Feeder) (r : Seq) : (s.putSeq f r).sample = s.sample := rfl
@[simp] theorem State.putSeq_engine (s : State) (f : Feeder) (r : Seq) : (s.putSeq f r).engine = s.engine := rfl
@[simp] theorem State.putSeq_store (s : State) (f : Feeder) (r : Seq) : (s.putSeq f r).store = s.store := rfl
@[simp] theorem State.putSeq_seq (s : State) (f : Feeder) (r : Seq) : (s.putSeq f r).seq = s.seq.set f r := rfl
@[simp] theorem State.putSeq_tags (s : State) (f : Feeder) (r : Seq) : (s.putSeq f r).tags = s.tags := rfl
@[simp] theorem State.putSeq_cal (s : State) (f : Feeder) (r : Seq) : (s.putSeq f r).cal = s.cal := rfl
@[simp] theorem State.putSeq_inputs (s : State) (f : Feeder) (r : Seq) : (s.putSeq f r).inputs = s.inputs := rfl
@[simp] theorem State.putSeq_latch (s : State) (f : Feeder) (r : Seq) : (s.putSeq f r).latch = s.latch := rfl
@[simp] theorem State.putSeq_cond (s : State) (f : Feeder) (r : Seq) : (s.putSeq f r).cond = s.cond := rfl
@[simp] theorem State.putSeq_sections (s : State) (f : Feeder) (r : Seq) : (s.putSeq f r).sections = s.sections := rfl
@[simp] theorem State.putSeq_hunts (s : State) (f : Feeder) (r : Seq) : (s.putSeq f r).hunts = s.hunts := rfl
@[simp] theorem State.putSeq_link (s : State) (f : Feeder) (r : Seq) : (s.putSeq f r).link = s.link := rfl
@[simp] theorem State.putSeq_att (s : State) (f : Feeder) (r : Seq) : (s.putSeq f r).att = s.att := rfl
@[simp] theorem State.putSeq_port (s : State) (f : Feeder) (r : Seq) : (s.putSeq f r).port = s.port := rfl

/-! ## putHunt -/

@[simp] theorem State.putHunt_pending (s : State) (f : Feeder) (h : Option Hunt) : (s.putHunt f h).pending = s.pending := rfl
@[simp] theorem State.putHunt_contacts (s : State) (f : Feeder) (h : Option Hunt) : (s.putHunt f h).contacts = s.contacts := rfl
@[simp] theorem State.putHunt_backup (s : State) (f : Feeder) (h : Option Hunt) : (s.putHunt f h).backup = s.backup := rfl
@[simp] theorem State.putHunt_sample (s : State) (f : Feeder) (h : Option Hunt) : (s.putHunt f h).sample = s.sample := rfl
@[simp] theorem State.putHunt_engine (s : State) (f : Feeder) (h : Option Hunt) : (s.putHunt f h).engine = s.engine := rfl
@[simp] theorem State.putHunt_store (s : State) (f : Feeder) (h : Option Hunt) : (s.putHunt f h).store = s.store := rfl
@[simp] theorem State.putHunt_seq (s : State) (f : Feeder) (h : Option Hunt) : (s.putHunt f h).seq = s.seq := rfl
@[simp] theorem State.putHunt_tags (s : State) (f : Feeder) (h : Option Hunt) : (s.putHunt f h).tags = s.tags := rfl
@[simp] theorem State.putHunt_cal (s : State) (f : Feeder) (h : Option Hunt) : (s.putHunt f h).cal = s.cal := rfl
@[simp] theorem State.putHunt_inputs (s : State) (f : Feeder) (h : Option Hunt) : (s.putHunt f h).inputs = s.inputs := rfl
@[simp] theorem State.putHunt_latch (s : State) (f : Feeder) (h : Option Hunt) : (s.putHunt f h).latch = s.latch := rfl
@[simp] theorem State.putHunt_cond (s : State) (f : Feeder) (h : Option Hunt) : (s.putHunt f h).cond = s.cond := rfl
@[simp] theorem State.putHunt_sections (s : State) (f : Feeder) (h : Option Hunt) : (s.putHunt f h).sections = s.sections := rfl
@[simp] theorem State.putHunt_hunts (s : State) (f : Feeder) (h : Option Hunt) : (s.putHunt f h).hunts = s.hunts.set f h := rfl
@[simp] theorem State.putHunt_link (s : State) (f : Feeder) (h : Option Hunt) : (s.putHunt f h).link = s.link := rfl
@[simp] theorem State.putHunt_att (s : State) (f : Feeder) (h : Option Hunt) : (s.putHunt f h).att = s.att := rfl
@[simp] theorem State.putHunt_port (s : State) (f : Feeder) (h : Option Hunt) : (s.putHunt f h).port = s.port := rfl

/-! ## putDevices -/

@[simp] theorem State.putDevices_pending (s : State) (t : Table Device) : (s.putDevices t).pending = s.pending := rfl
@[simp] theorem State.putDevices_contacts (s : State) (t : Table Device) : (s.putDevices t).contacts = s.contacts := rfl
@[simp] theorem State.putDevices_backup (s : State) (t : Table Device) : (s.putDevices t).backup = s.backup := rfl
@[simp] theorem State.putDevices_sample (s : State) (t : Table Device) : (s.putDevices t).sample = s.sample := rfl
@[simp] theorem State.putDevices_engine (s : State) (t : Table Device) : (s.putDevices t).engine = s.engine := rfl
@[simp] theorem State.putDevices_store (s : State) (t : Table Device) : (s.putDevices t).store = s.store := rfl
@[simp] theorem State.putDevices_seq (s : State) (t : Table Device) : (s.putDevices t).seq = s.seq := rfl
@[simp] theorem State.putDevices_tags (s : State) (t : Table Device) : (s.putDevices t).tags = s.tags := rfl
@[simp] theorem State.putDevices_cal (s : State) (t : Table Device) : (s.putDevices t).cal = s.cal := rfl
@[simp] theorem State.putDevices_inputs (s : State) (t : Table Device) : (s.putDevices t).inputs = s.inputs := rfl
@[simp] theorem State.putDevices_latch (s : State) (t : Table Device) : (s.putDevices t).latch = s.latch := rfl
@[simp] theorem State.putDevices_cond (s : State) (t : Table Device) : (s.putDevices t).cond = s.cond := rfl
@[simp] theorem State.putDevices_sections (s : State) (t : Table Device) : (s.putDevices t).sections = s.sections := rfl
@[simp] theorem State.putDevices_hunts (s : State) (t : Table Device) : (s.putDevices t).hunts = s.hunts := rfl
@[simp] theorem State.putDevices_link (s : State) (t : Table Device) : (s.putDevices t).link = { s.link with devices := t } := rfl
@[simp] theorem State.putDevices_att (s : State) (t : Table Device) : (s.putDevices t).att = s.att := rfl
@[simp] theorem State.putDevices_port (s : State) (t : Table Device) : (s.putDevices t).port = s.port := rfl

/-! ## putInputs -/

@[simp] theorem State.putInputs_pending (s : State) (f : Feeder) (i : Inputs) : (s.putInputs f i).pending = s.pending := rfl
@[simp] theorem State.putInputs_contacts (s : State) (f : Feeder) (i : Inputs) : (s.putInputs f i).contacts = s.contacts := rfl
@[simp] theorem State.putInputs_backup (s : State) (f : Feeder) (i : Inputs) : (s.putInputs f i).backup = s.backup := rfl
@[simp] theorem State.putInputs_sample (s : State) (f : Feeder) (i : Inputs) : (s.putInputs f i).sample = s.sample := rfl
@[simp] theorem State.putInputs_engine (s : State) (f : Feeder) (i : Inputs) : (s.putInputs f i).engine = s.engine := rfl
@[simp] theorem State.putInputs_store (s : State) (f : Feeder) (i : Inputs) : (s.putInputs f i).store = s.store := rfl
@[simp] theorem State.putInputs_seq (s : State) (f : Feeder) (i : Inputs) : (s.putInputs f i).seq = s.seq := rfl
@[simp] theorem State.putInputs_tags (s : State) (f : Feeder) (i : Inputs) : (s.putInputs f i).tags = s.tags := rfl
@[simp] theorem State.putInputs_cal (s : State) (f : Feeder) (i : Inputs) : (s.putInputs f i).cal = s.cal := rfl
@[simp] theorem State.putInputs_inputs (s : State) (f : Feeder) (i : Inputs) : (s.putInputs f i).inputs = s.inputs.set f i := rfl
@[simp] theorem State.putInputs_latch (s : State) (f : Feeder) (i : Inputs) : (s.putInputs f i).latch = s.latch := rfl
@[simp] theorem State.putInputs_cond (s : State) (f : Feeder) (i : Inputs) : (s.putInputs f i).cond = s.cond := rfl
@[simp] theorem State.putInputs_sections (s : State) (f : Feeder) (i : Inputs) : (s.putInputs f i).sections = s.sections := rfl
@[simp] theorem State.putInputs_hunts (s : State) (f : Feeder) (i : Inputs) : (s.putInputs f i).hunts = s.hunts := rfl
@[simp] theorem State.putInputs_link (s : State) (f : Feeder) (i : Inputs) : (s.putInputs f i).link = s.link := rfl
@[simp] theorem State.putInputs_att (s : State) (f : Feeder) (i : Inputs) : (s.putInputs f i).att = s.att := rfl
@[simp] theorem State.putInputs_port (s : State) (f : Feeder) (i : Inputs) : (s.putInputs f i).port = s.port := rfl

/-! ## putEngine -/

@[simp] theorem State.putEngine_pending (s : State) (f : Feeder) (e : Engine) : (s.putEngine f e).pending = s.pending := rfl
@[simp] theorem State.putEngine_contacts (s : State) (f : Feeder) (e : Engine) : (s.putEngine f e).contacts = s.contacts := rfl
@[simp] theorem State.putEngine_backup (s : State) (f : Feeder) (e : Engine) : (s.putEngine f e).backup = s.backup := rfl
@[simp] theorem State.putEngine_sample (s : State) (f : Feeder) (e : Engine) : (s.putEngine f e).sample = s.sample := rfl
@[simp] theorem State.putEngine_engine (s : State) (f : Feeder) (e : Engine) : (s.putEngine f e).engine = s.engine.set f e := rfl
@[simp] theorem State.putEngine_store (s : State) (f : Feeder) (e : Engine) : (s.putEngine f e).store = s.store := rfl
@[simp] theorem State.putEngine_seq (s : State) (f : Feeder) (e : Engine) : (s.putEngine f e).seq = s.seq := rfl
@[simp] theorem State.putEngine_tags (s : State) (f : Feeder) (e : Engine) : (s.putEngine f e).tags = s.tags := rfl
@[simp] theorem State.putEngine_cal (s : State) (f : Feeder) (e : Engine) : (s.putEngine f e).cal = s.cal := rfl
@[simp] theorem State.putEngine_inputs (s : State) (f : Feeder) (e : Engine) : (s.putEngine f e).inputs = s.inputs := rfl
@[simp] theorem State.putEngine_latch (s : State) (f : Feeder) (e : Engine) : (s.putEngine f e).latch = s.latch := rfl
@[simp] theorem State.putEngine_cond (s : State) (f : Feeder) (e : Engine) : (s.putEngine f e).cond = s.cond := rfl
@[simp] theorem State.putEngine_sections (s : State) (f : Feeder) (e : Engine) : (s.putEngine f e).sections = s.sections := rfl
@[simp] theorem State.putEngine_hunts (s : State) (f : Feeder) (e : Engine) : (s.putEngine f e).hunts = s.hunts := rfl
@[simp] theorem State.putEngine_link (s : State) (f : Feeder) (e : Engine) : (s.putEngine f e).link = s.link := rfl
@[simp] theorem State.putEngine_att (s : State) (f : Feeder) (e : Engine) : (s.putEngine f e).att = s.att := rfl
@[simp] theorem State.putEngine_port (s : State) (f : Feeder) (e : Engine) : (s.putEngine f e).port = s.port := rfl

/-! ## putSample -/

@[simp] theorem State.putSample_pending (s : State) (f : Feeder) (m : Sample) : (s.putSample f m).pending = s.pending := rfl
@[simp] theorem State.putSample_contacts (s : State) (f : Feeder) (m : Sample) : (s.putSample f m).contacts = s.contacts := rfl
@[simp] theorem State.putSample_backup (s : State) (f : Feeder) (m : Sample) : (s.putSample f m).backup = s.backup := rfl
@[simp] theorem State.putSample_sample (s : State) (f : Feeder) (m : Sample) : (s.putSample f m).sample = s.sample.set f m := rfl
@[simp] theorem State.putSample_engine (s : State) (f : Feeder) (m : Sample) : (s.putSample f m).engine = s.engine := rfl
@[simp] theorem State.putSample_store (s : State) (f : Feeder) (m : Sample) : (s.putSample f m).store = s.store := rfl
@[simp] theorem State.putSample_seq (s : State) (f : Feeder) (m : Sample) : (s.putSample f m).seq = s.seq := rfl
@[simp] theorem State.putSample_tags (s : State) (f : Feeder) (m : Sample) : (s.putSample f m).tags = s.tags := rfl
@[simp] theorem State.putSample_cal (s : State) (f : Feeder) (m : Sample) : (s.putSample f m).cal = s.cal := rfl
@[simp] theorem State.putSample_inputs (s : State) (f : Feeder) (m : Sample) : (s.putSample f m).inputs = s.inputs := rfl
@[simp] theorem State.putSample_latch (s : State) (f : Feeder) (m : Sample) : (s.putSample f m).latch = s.latch := rfl
@[simp] theorem State.putSample_cond (s : State) (f : Feeder) (m : Sample) : (s.putSample f m).cond = s.cond := rfl
@[simp] theorem State.putSample_sections (s : State) (f : Feeder) (m : Sample) : (s.putSample f m).sections = s.sections := rfl
@[simp] theorem State.putSample_hunts (s : State) (f : Feeder) (m : Sample) : (s.putSample f m).hunts = s.hunts := rfl
@[simp] theorem State.putSample_link (s : State) (f : Feeder) (m : Sample) : (s.putSample f m).link = s.link := rfl
@[simp] theorem State.putSample_att (s : State) (f : Feeder) (m : Sample) : (s.putSample f m).att = s.att := rfl
@[simp] theorem State.putSample_port (s : State) (f : Feeder) (m : Sample) : (s.putSample f m).port = s.port := rfl

/-! ## give -/

@[simp] theorem State.give_pending (s : State) (sc : Scope) (d : Detail) : (s.give sc d).pending = s.pending := rfl
@[simp] theorem State.give_contacts (s : State) (sc : Scope) (d : Detail) : (s.give sc d).contacts = s.contacts := rfl
@[simp] theorem State.give_backup (s : State) (sc : Scope) (d : Detail) : (s.give sc d).backup = s.backup := rfl
@[simp] theorem State.give_sample (s : State) (sc : Scope) (d : Detail) : (s.give sc d).sample = s.sample := rfl
@[simp] theorem State.give_engine (s : State) (sc : Scope) (d : Detail) : (s.give sc d).engine = s.engine := rfl
@[simp] theorem State.give_store (s : State) (sc : Scope) (d : Detail) : (s.give sc d).store = s.store := rfl
@[simp] theorem State.give_seq (s : State) (sc : Scope) (d : Detail) : (s.give sc d).seq = s.seq := rfl
@[simp] theorem State.give_tags (s : State) (sc : Scope) (d : Detail) : (s.give sc d).tags = s.tags := rfl
@[simp] theorem State.give_cal (s : State) (sc : Scope) (d : Detail) : (s.give sc d).cal = s.cal := rfl
@[simp] theorem State.give_inputs (s : State) (sc : Scope) (d : Detail) : (s.give sc d).inputs = s.inputs := rfl
@[simp] theorem State.give_latch (s : State) (sc : Scope) (d : Detail) : (s.give sc d).latch = s.latch := rfl
@[simp] theorem State.give_cond (s : State) (sc : Scope) (d : Detail) : (s.give sc d).cond = s.cond := rfl
@[simp] theorem State.give_sections (s : State) (sc : Scope) (d : Detail) : (s.give sc d).sections = s.sections := rfl
@[simp] theorem State.give_hunts (s : State) (sc : Scope) (d : Detail) : (s.give sc d).hunts = s.hunts := rfl
@[simp] theorem State.give_link (s : State) (sc : Scope) (d : Detail) : (s.give sc d).link = s.link := rfl
@[simp] theorem State.give_att (s : State) (sc : Scope) (d : Detail) : (s.give sc d).att = s.att.give sc d := rfl
@[simp] theorem State.give_port (s : State) (sc : Scope) (d : Detail) : (s.give sc d).port = s.port := rfl

/-! ## answer -/

@[simp] theorem State.answer_pending (s : State) (c : Byte) (r : Reply) : (s.answer c r).pending = s.pending := rfl
@[simp] theorem State.answer_contacts (s : State) (c : Byte) (r : Reply) : (s.answer c r).contacts = s.contacts := rfl
@[simp] theorem State.answer_backup (s : State) (c : Byte) (r : Reply) : (s.answer c r).backup = s.backup := rfl
@[simp] theorem State.answer_sample (s : State) (c : Byte) (r : Reply) : (s.answer c r).sample = s.sample := rfl
@[simp] theorem State.answer_engine (s : State) (c : Byte) (r : Reply) : (s.answer c r).engine = s.engine := rfl
@[simp] theorem State.answer_store (s : State) (c : Byte) (r : Reply) : (s.answer c r).store = s.store := rfl
@[simp] theorem State.answer_seq (s : State) (c : Byte) (r : Reply) : (s.answer c r).seq = s.seq := rfl
@[simp] theorem State.answer_tags (s : State) (c : Byte) (r : Reply) : (s.answer c r).tags = s.tags := rfl
@[simp] theorem State.answer_cal (s : State) (c : Byte) (r : Reply) : (s.answer c r).cal = s.cal := rfl
@[simp] theorem State.answer_inputs (s : State) (c : Byte) (r : Reply) : (s.answer c r).inputs = s.inputs := rfl
@[simp] theorem State.answer_latch (s : State) (c : Byte) (r : Reply) : (s.answer c r).latch = s.latch := rfl
@[simp] theorem State.answer_cond (s : State) (c : Byte) (r : Reply) : (s.answer c r).cond = s.cond := rfl
@[simp] theorem State.answer_sections (s : State) (c : Byte) (r : Reply) : (s.answer c r).sections = s.sections := rfl
@[simp] theorem State.answer_hunts (s : State) (c : Byte) (r : Reply) : (s.answer c r).hunts = s.hunts := rfl
@[simp] theorem State.answer_link (s : State) (c : Byte) (r : Reply) : (s.answer c r).link = s.link := rfl
@[simp] theorem State.answer_att (s : State) (c : Byte) (r : Reply) : (s.answer c r).att = s.att := rfl
@[simp] theorem State.answer_port (s : State) (c : Byte) (r : Reply) : (s.answer c r).port = { s.port with buffer := ⟨r.status, c, r.payload⟩ } := rfl

/-! ## restartSupervision -/

@[simp] theorem State.restartSupervision_pending (s : State) : (s.restartSupervision).pending = s.pending := rfl
@[simp] theorem State.restartSupervision_contacts (s : State) : (s.restartSupervision).contacts = s.contacts := rfl
@[simp] theorem State.restartSupervision_backup (s : State) : (s.restartSupervision).backup = s.backup := rfl
@[simp] theorem State.restartSupervision_sample (s : State) : (s.restartSupervision).sample = s.sample := rfl
@[simp] theorem State.restartSupervision_engine (s : State) : (s.restartSupervision).engine = s.engine := rfl
@[simp] theorem State.restartSupervision_store (s : State) : (s.restartSupervision).store = s.store := rfl
@[simp] theorem State.restartSupervision_seq (s : State) : (s.restartSupervision).seq = s.seq := rfl
@[simp] theorem State.restartSupervision_tags (s : State) : (s.restartSupervision).tags = s.tags := rfl
@[simp] theorem State.restartSupervision_cal (s : State) : (s.restartSupervision).cal = s.cal := rfl
@[simp] theorem State.restartSupervision_inputs (s : State) : (s.restartSupervision).inputs = s.inputs := rfl
@[simp] theorem State.restartSupervision_latch (s : State) : (s.restartSupervision).latch = s.latch := rfl
@[simp] theorem State.restartSupervision_cond (s : State) : (s.restartSupervision).cond = s.cond := rfl
@[simp] theorem State.restartSupervision_sections (s : State) : (s.restartSupervision).sections = s.sections := rfl
@[simp] theorem State.restartSupervision_hunts (s : State) : (s.restartSupervision).hunts = s.hunts := rfl
@[simp] theorem State.restartSupervision_link (s : State) : (s.restartSupervision).link = s.link := rfl
@[simp] theorem State.restartSupervision_att (s : State) : (s.restartSupervision).att = { s.att with timer := supervisionTimer s.att.period, expiries := 0 } := rfl
@[simp] theorem State.restartSupervision_port (s : State) : (s.restartSupervision).port = s.port := rfl

/-! ## putStaging -/

@[simp] theorem State.putStaging_pending (s : State) (g : Staging) : (s.putStaging g).pending = s.pending := rfl
@[simp] theorem State.putStaging_contacts (s : State) (g : Staging) : (s.putStaging g).contacts = s.contacts := rfl
@[simp] theorem State.putStaging_backup (s : State) (g : Staging) : (s.putStaging g).backup = s.backup := rfl
@[simp] theorem State.putStaging_sample (s : State) (g : Staging) : (s.putStaging g).sample = s.sample := rfl
@[simp] theorem State.putStaging_engine (s : State) (g : Staging) : (s.putStaging g).engine = s.engine := rfl
@[simp] theorem State.putStaging_store (s : State) (g : Staging) : (s.putStaging g).store = { s.store with staging := g } := rfl
@[simp] theorem State.putStaging_seq (s : State) (g : Staging) : (s.putStaging g).seq = s.seq := rfl
@[simp] theorem State.putStaging_tags (s : State) (g : Staging) : (s.putStaging g).tags = s.tags := rfl
@[simp] theorem State.putStaging_cal (s : State) (g : Staging) : (s.putStaging g).cal = s.cal := rfl
@[simp] theorem State.putStaging_inputs (s : State) (g : Staging) : (s.putStaging g).inputs = s.inputs := rfl
@[simp] theorem State.putStaging_latch (s : State) (g : Staging) : (s.putStaging g).latch = s.latch := rfl
@[simp] theorem State.putStaging_cond (s : State) (g : Staging) : (s.putStaging g).cond = s.cond := rfl
@[simp] theorem State.putStaging_sections (s : State) (g : Staging) : (s.putStaging g).sections = s.sections := rfl
@[simp] theorem State.putStaging_hunts (s : State) (g : Staging) : (s.putStaging g).hunts = s.hunts := rfl
@[simp] theorem State.putStaging_link (s : State) (g : Staging) : (s.putStaging g).link = s.link := rfl
@[simp] theorem State.putStaging_att (s : State) (g : Staging) : (s.putStaging g).att = s.att := rfl
@[simp] theorem State.putStaging_port (s : State) (g : Staging) : (s.putStaging g).port = s.port := rfl

/-! ## putSections -/

@[simp] theorem State.putSections_pending (s : State) (f : Feeder) (t : Table Section) : (s.putSections f t).pending = s.pending := rfl
@[simp] theorem State.putSections_contacts (s : State) (f : Feeder) (t : Table Section) : (s.putSections f t).contacts = s.contacts := rfl
@[simp] theorem State.putSections_backup (s : State) (f : Feeder) (t : Table Section) : (s.putSections f t).backup = s.backup := rfl
@[simp] theorem State.putSections_sample (s : State) (f : Feeder) (t : Table Section) : (s.putSections f t).sample = s.sample := rfl
@[simp] theorem State.putSections_engine (s : State) (f : Feeder) (t : Table Section) : (s.putSections f t).engine = s.engine := rfl
@[simp] theorem State.putSections_store (s : State) (f : Feeder) (t : Table Section) : (s.putSections f t).store = s.store := rfl
@[simp] theorem State.putSections_seq (s : State) (f : Feeder) (t : Table Section) : (s.putSections f t).seq = s.seq := rfl
@[simp] theorem State.putSections_tags (s : State) (f : Feeder) (t : Table Section) : (s.putSections f t).tags = s.tags := rfl
@[simp] theorem State.putSections_cal (s : State) (f : Feeder) (t : Table Section) : (s.putSections f t).cal = s.cal := rfl
@[simp] theorem State.putSections_inputs (s : State) (f : Feeder) (t : Table Section) : (s.putSections f t).inputs = s.inputs := rfl
@[simp] theorem State.putSections_latch (s : State) (f : Feeder) (t : Table Section) : (s.putSections f t).latch = s.latch := rfl
@[simp] theorem State.putSections_cond (s : State) (f : Feeder) (t : Table Section) : (s.putSections f t).cond = s.cond := rfl
@[simp] theorem State.putSections_sections (s : State) (f : Feeder) (t : Table Section) : (s.putSections f t).sections = s.sections.set f t := rfl
@[simp] theorem State.putSections_hunts (s : State) (f : Feeder) (t : Table Section) : (s.putSections f t).hunts = s.hunts := rfl
@[simp] theorem State.putSections_link (s : State) (f : Feeder) (t : Table Section) : (s.putSections f t).link = s.link := rfl
@[simp] theorem State.putSections_att (s : State) (f : Feeder) (t : Table Section) : (s.putSections f t).att = s.att := rfl
@[simp] theorem State.putSections_port (s : State) (f : Feeder) (t : Table Section) : (s.putSections f t).port = s.port := rfl

/-! ## putSchedule -/

@[simp] theorem State.putSchedule_pending (s : State) (t : Table Entry) : (s.putSchedule t).pending = s.pending := rfl
@[simp] theorem State.putSchedule_contacts (s : State) (t : Table Entry) : (s.putSchedule t).contacts = s.contacts := rfl
@[simp] theorem State.putSchedule_backup (s : State) (t : Table Entry) : (s.putSchedule t).backup = s.backup := rfl
@[simp] theorem State.putSchedule_sample (s : State) (t : Table Entry) : (s.putSchedule t).sample = s.sample := rfl
@[simp] theorem State.putSchedule_engine (s : State) (t : Table Entry) : (s.putSchedule t).engine = s.engine := rfl
@[simp] theorem State.putSchedule_store (s : State) (t : Table Entry) : (s.putSchedule t).store = s.store := rfl
@[simp] theorem State.putSchedule_seq (s : State) (t : Table Entry) : (s.putSchedule t).seq = s.seq := rfl
@[simp] theorem State.putSchedule_tags (s : State) (t : Table Entry) : (s.putSchedule t).tags = s.tags := rfl
@[simp] theorem State.putSchedule_cal (s : State) (t : Table Entry) : (s.putSchedule t).cal = { s.cal with schedule := t } := rfl
@[simp] theorem State.putSchedule_inputs (s : State) (t : Table Entry) : (s.putSchedule t).inputs = s.inputs := rfl
@[simp] theorem State.putSchedule_latch (s : State) (t : Table Entry) : (s.putSchedule t).latch = s.latch := rfl
@[simp] theorem State.putSchedule_cond (s : State) (t : Table Entry) : (s.putSchedule t).cond = s.cond := rfl
@[simp] theorem State.putSchedule_sections (s : State) (t : Table Entry) : (s.putSchedule t).sections = s.sections := rfl
@[simp] theorem State.putSchedule_hunts (s : State) (t : Table Entry) : (s.putSchedule t).hunts = s.hunts := rfl
@[simp] theorem State.putSchedule_link (s : State) (t : Table Entry) : (s.putSchedule t).link = s.link := rfl
@[simp] theorem State.putSchedule_att (s : State) (t : Table Entry) : (s.putSchedule t).att = s.att := rfl
@[simp] theorem State.putSchedule_port (s : State) (t : Table Entry) : (s.putSchedule t).port = s.port := rfl

/-! ## senseCarrier -/

@[simp] theorem State.senseCarrier_pending (s : State) (b : Bool) : (s.senseCarrier b).pending = s.pending := rfl
@[simp] theorem State.senseCarrier_contacts (s : State) (b : Bool) : (s.senseCarrier b).contacts = s.contacts := rfl
@[simp] theorem State.senseCarrier_backup (s : State) (b : Bool) : (s.senseCarrier b).backup = s.backup := rfl
@[simp] theorem State.senseCarrier_sample (s : State) (b : Bool) : (s.senseCarrier b).sample = s.sample := rfl
@[simp] theorem State.senseCarrier_engine (s : State) (b : Bool) : (s.senseCarrier b).engine = s.engine := rfl
@[simp] theorem State.senseCarrier_store (s : State) (b : Bool) : (s.senseCarrier b).store = s.store := rfl
@[simp] theorem State.senseCarrier_seq (s : State) (b : Bool) : (s.senseCarrier b).seq = s.seq := rfl
@[simp] theorem State.senseCarrier_tags (s : State) (b : Bool) : (s.senseCarrier b).tags = s.tags := rfl
@[simp] theorem State.senseCarrier_cal (s : State) (b : Bool) : (s.senseCarrier b).cal = s.cal := rfl
@[simp] theorem State.senseCarrier_inputs (s : State) (b : Bool) : (s.senseCarrier b).inputs = s.inputs := rfl
@[simp] theorem State.senseCarrier_latch (s : State) (b : Bool) : (s.senseCarrier b).latch = s.latch := rfl
@[simp] theorem State.senseCarrier_cond (s : State) (b : Bool) : (s.senseCarrier b).cond = s.cond := rfl
@[simp] theorem State.senseCarrier_sections (s : State) (b : Bool) : (s.senseCarrier b).sections = s.sections := rfl
@[simp] theorem State.senseCarrier_hunts (s : State) (b : Bool) : (s.senseCarrier b).hunts = s.hunts := rfl
@[simp] theorem State.senseCarrier_link (s : State) (b : Bool) : (s.senseCarrier b).link = { s.link with carrier := b } := rfl
@[simp] theorem State.senseCarrier_att (s : State) (b : Bool) : (s.senseCarrier b).att = s.att := rfl
@[simp] theorem State.senseCarrier_port (s : State) (b : Bool) : (s.senseCarrier b).port = s.port := rfl

/-! ## Fours, fives and pairs -/

@[simp] theorem Four.get_set_self {α : Type} (x : Four α) (i : Ix4) (a : α) : (x.set i a).get i = a := by cases i <;> rfl

theorem Four.get_set_other {α : Type} (x : Four α) {i j : Ix4} (a : α) (h : j ≠ i) : (x.set i a).get j = x.get j := by
  cases i <;> cases j <;> first | rfl | exact absurd rfl h

/-- What an index holds after one of the four was written. -/
theorem Four.get_set {α : Type} (x : Four α) (i j : Ix4) (a : α) : (x.set i a).get j = if j = i then a else x.get j := by
  cases i <;> cases j <;> rfl

@[simp] theorem Four.get_fill {α : Type} (a : α) (i : Ix4) : (Four.fill a).get i = a := by cases i <;> rfl

@[simp] theorem Four.get_map {α β : Type} (g : α → β) (x : Four α) (i : Ix4) : (x.map g).get i = g (x.get i) := by
  cases i <;> rfl

@[simp] theorem Four.get_build {α : Type} (g : Ix4 → α) (i : Ix4) : (Four.build g).get i = g i := by cases i <;> rfl

@[simp] theorem Five.get_build {α : Type} (g : Element → α) (e : Element) : (Five.build g).get e = g e := by cases e <;> rfl

@[simp] theorem Five.get_fill {α : Type} (a : α) (e : Element) : (Five.fill a).get e = a := by cases e <;> rfl

@[simp] theorem Ix4.ofNum_num (i : Ix4) : Ix4.ofNum i.num = some i := by cases i <;> rfl

@[simp] theorem Ix4.ofPlace_place (i : Ix4) : Ix4.ofPlace i.place = some i := by cases i <;> rfl

theorem Ix4.ofNum_eq_none {n : Nat} : Ix4.ofNum n = none ↔ n < 1 ∨ 4 < n := by
  constructor
  · intro h
    match n with
    | 0 | 1 | 2 | 3 | 4 => first | omega | exact absurd h (by decide)
    | n + 5 => omega
  · intro h
    match n with
    | 0 => rfl
    | 1 | 2 | 3 | 4 => omega
    | n + 5 => rfl

theorem Ix4.mem_all (i : Ix4) : i ∈ Ix4.all := by cases i <;> decide

/-- The backup trip line is asserted exactly when some feeder is in BREAKER_FAIL. -/
theorem anyFailed_iff (q : Four Seq) : anyFailed q = true ↔ ∃ f, (q.get f).state.failed = true := by
  constructor
  · intro h
    simp only [anyFailed, Four.toList, List.any_cons, List.any_nil, Bool.or_false, Bool.or_eq_true] at h
    rcases h with h | h | h | h
    · exact ⟨.n1, h⟩
    · exact ⟨.n2, h⟩
    · exact ⟨.n3, h⟩
    · exact ⟨.n4, h⟩
  · rintro ⟨f, h⟩
    simp only [anyFailed, Four.toList, List.any_cons, List.any_nil, Bool.or_false, Bool.or_eq_true]
    cases f
    · exact .inl h
    · exact .inr (.inl h)
    · exact .inr (.inr (.inl h))
    · exact .inr (.inr (.inr h))

/-! ## The end of a transaction (11 R199, R200, R203, R206) -/

theorem State.endTransaction_ready {s : State} (g : State → State) (h : s.port.phase = .ready) :
    s.endTransaction g = g s := by simp [State.endTransaction, h]

theorem State.endTransaction_resetPending {s : State} (g : State → State) (h : s.port.phase = .resetPending) :
    s.endTransaction g = s.performReset s.pinsAsTaken := by simp [State.endTransaction, h]

theorem State.endTransaction_cut {s : State} (g : State → State) (h : s.port.phase = .cut) :
    s.endTransaction g = { s with port := { s.port with phase := .ready } } := by simp [State.endTransaction, h]

/-- A command whose payload has its fields is answered by its rule, supervision restarted. -/
theorem serve_ready {α : Type} {code : Nat} {reader : Payload → Option α} {act : α → State → State × Reply} {p : Payload}
    {s : State} {a : α} (h : s.port.phase = .ready) (hr : reader p = some a) :
    serve code reader act p s = .next (respond code (act a s.restartSupervision)) := by
  simp [serve, goodFrame, dispatch, State.endTransaction_ready _ h, hr]

/-- A command whose payload has not its fields is answered BAD_FIELD, supervision restarted. -/
theorem serve_misshapen {α : Type} {code : Nat} {reader : Payload → Option α} {act : α → State → State × Reply} {p : Payload}
    {s : State} (h : s.port.phase = .ready) (hr : reader p = none) :
    serve code reader act p s = .next (respond code (s.restartSupervision, refuse .badField)) := by
  simp [serve, goodFrame, dispatch, State.endTransaction_ready _ h, hr]

/-! ## The state that a step starts from -/

@[simp] theorem State.cold_pending (pins : Pins) (q : List Instr) : (State.cold pins q).pending = q := rfl

end Sys2Proof.Machine
end

