-- ==== Sys2Proof/Laws/Kept.lean ====
section
/-! SUPPORT. What the internal operations of the part keep: a property of states that each kind of write keeps is kept by every
operation of the Sequencer, the Hunt Unit and Permission Logic that is made of those writes. -/

namespace Sys2Proof.Machine

/-- What a write of a sequencer record may do: it asserts the close drive only where no TAG_NO_CLOSE cause stands (03 R65), and
raises the shot counter only up to the shot count of the active group (03 R54). -/
def State.allows (s : State) (f : Feeder) (r : Seq) : Prop :=
  (r.closeDrive = true → (s.seq.get f).closeDrive = true ∨ (s.causes f).tagNoClose = false)
    ∧ (r.shots ≤ (s.seq.get f).shots ∨ r.shots ≤ (s.activeGroup f).shotCount)

/-- A property of states that every kind of write of an internal operation keeps. A write of the device table keeps
the addresses and the orders in flight. -/
structure Kept (P : State → Prop) : Prop where
  seq : ∀ s f r, s.allows f r → P s → P (s.putSeq f r)
  hunt : ∀ s f h, P s → P (s.putHunt f h)
  devices : ∀ s g, (∀ a d, (g a d).inFlight = d.inFlight) → P s → P (s.putDevices (s.link.devices.mapAll g))
  give : ∀ s sc d, P s → P (s.give sc d)

/-- A property that the writes of a derivation keep as well: a Feeder Condition record is written as it is derived (06 R122). -/
structure KeptDerive (P : State → Prop) : Prop extends Kept P where
  cond : ∀ s f, P s → P { s with cond := s.cond.set f (s.conditionOf f) }

/-! ## Causes that forbid a close -/

theorem Causes.tagNoClose_of_any (c : Causes) (k : Cause → Bool) (hk : k .tagNoClose = true) (h : c.any k = false) :
    c.tagNoClose = false := by
  cases hc : c.tagNoClose
  · rfl
  · exfalso
    have : c.any k = true := by
      simp only [Causes.any, Causes.list, List.any_eq_true, List.mem_filter]
      exact ⟨.tagNoClose, ⟨by decide, hc⟩, hk⟩
    simp [this] at h

theorem Causes.tagNoClose_of_first (c : Causes) (k : Cause → Bool) (hk : k .tagNoClose = true) (h : c.first k = none) :
    c.tagNoClose = false := by
  apply c.tagNoClose_of_any k hk
  simp only [Causes.first, List.find?_eq_none] at h
  simp only [Causes.any, List.any_eq_false]
  exact h

namespace Kept

variable {P : State → Prop} (K : Kept P)
include K

/-! ## The Sequencer -/

theorem modSeq {s : State} (f : Feeder) (g : Seq → Seq) (hg : s.allows f (g (s.seq.get f))) (h : P s) : P (s.modSeq f g) :=
  K.seq s f _ hg h

/-- A change of a sequencer record that asserts no close drive and raises no shot counter. -/
theorem modSeqQuiet {s : State} (f : Feeder) (g : Seq → Seq)
    (hg : ∀ r, ((g r).closeDrive = true → r.closeDrive = true) ∧ (g r).shots ≤ r.shots) (h : P s) : P (s.modSeq f g) :=
  K.modSeq f g ⟨fun e => .inl ((hg _).1 e), .inl (hg _).2⟩ h

theorem lockout {s : State} (f : Feeder) (c : LockoutCause) (e : Option Element) (h : P s) : P (s.lockout f c e) :=
  K.give _ _ _ (K.modSeqQuiet f _ (fun _ => ⟨id, Nat.le_refl _⟩) h)

theorem leaveHunt {s : State} (f : Feeder) (h : P s) : P (s.leaveHunt f) := by
  unfold State.leaveHunt
  split
  · exact K.modSeqQuiet f _ (fun _ => ⟨id, Nat.le_refl _⟩) h
  · have h1 : P (s.modSeq f Seq.releaseClose) := K.modSeqQuiet f _ (fun _ => ⟨fun e => (by cases e), Nat.le_refl _⟩) h
    dsimp only
    split
    · exact K.modSeqQuiet f _ (fun _ => ⟨id, Nat.zero_le _⟩) h1
    · exact K.lockout f _ _ h1

theorem breakerFails {s : State} (f : Feeder) (o : TripOrigin) (h : P s) : P (s.breakerFails f o) :=
  K.give _ _ _ (K.modSeqQuiet f _ (fun _ => ⟨id, Nat.le_refl _⟩) h)

omit K in
theorem assertTrip_closeDrive (r : Seq) : (r.assertTrip).closeDrive = false := by
  cases hr : r.closeDrive <;> simp [Seq.assertTrip, Seq.releaseClose, hr]

omit K in
theorem assertTrip_shots (r : Seq) : (r.assertTrip).shots = r.shots := by
  cases hr : r.closeDrive <;> simp [Seq.assertTrip, Seq.releaseClose, hr]

theorem huntOpen {s : State} (f : Feeder) (h : P s) : P (s.huntOpen f).1 := by
  unfold State.huntOpen
  dsimp only
  split
  · exact h
  · split
    · dsimp only
      exact K.modSeqQuiet f _ (fun _ => ⟨fun e => (by cases e), Nat.le_refl _⟩) h
    · dsimp only
      exact K.modSeqQuiet f _ (fun r => ⟨fun e => absurd (e.symm.trans (assertTrip_closeDrive r)) (by decide), Nat.le_of_eq (assertTrip_shots r)⟩) h

theorem huntClose {s : State} (f : Feeder) (x : HuntService) (h : P s) : P (s.huntClose f x).1 := by
  unfold State.huntClose
  dsimp only
  split
  · split
    · exact h
    · next hc =>
      split
      · dsimp only
        exact K.modSeq f _ ⟨fun _ => .inr (Causes.tagNoClose_of_first _ _ rfl hc), .inl (Nat.le_refl _)⟩ h
      · exact h
  · exact h

/-! ## The Hunt Unit -/

omit K in
theorem returned_inFlight (keep : Bool) (d : Device) : (d.returned keep).inFlight = d.inFlight := by cases keep <;> rfl

theorem finishHunt {s : State} (f : Feeder) (x : Hunt) (p : HuntPhase) (d : Option HuntDetail) (h : P s) :
    P (s.finishHunt f x p d) := by
  refine K.hunt _ _ _ (K.devices _ _ ?_ h)
  intro a d
  split
  · exact returned_inFlight _ d
  · rfl

theorem closeHunt {s : State} (f : Feeder) (p : HuntPhase) (d : Option HuntDetail) (h : P s) : P (s.closeHunt f p d) := by
  unfold State.closeHunt
  split
  · exact K.give _ _ _ (K.finishHunt f _ _ _ h)
  · exact h

theorem endHunt {s : State} (f : Feeder) (p : HuntPhase) (d : Option HuntDetail) (h : P s) : P (s.endHunt f p d) :=
  K.leaveHunt f (K.closeHunt f p d h)

theorem askRestoreClose {s : State} (f : Feeder) (x : Hunt) (h : P s) : P (s.askRestoreClose f x) := by
  unfold State.askRestoreClose
  split
  · exact K.endHunt f _ _ h
  · have hc := K.huntClose f .restoreClosing h
    split <;> next e => rw [e] at hc; first | exact K.hunt _ _ _ hc | exact K.endHunt f _ _ hc | exact hc

theorem awaitRestore {s : State} (f : Feeder) (x : Hunt) (h : P s) : P (s.awaitRestore f x) := by
  unfold State.awaitRestore
  dsimp only
  split
  · exact K.askRestoreClose f x (K.hunt _ _ _ h)
  · exact K.hunt _ _ _ h

theorem beginRestore {s : State} (f : Feeder) (x : Hunt) (h : P s) : P (s.beginRestore f x) := by
  unfold State.beginRestore
  split
  · split
    · exact K.endHunt f _ _ h
    · refine K.awaitRestore f _ (K.devices _ _ ?_ h)
      intro a d
      split
      · rfl
      · split <;> rfl
  · refine K.awaitRestore f _ (K.devices _ _ ?_ h)
    intro a d
    split <;> rfl

theorem isolated {s : State} (f : Feeder) (x : Hunt) (h : P s) : P (s.isolated f x) := by
  unfold State.isolated
  split
  · exact K.endHunt f _ _ h
  · split
    · exact K.endHunt f _ _ h
    · have hc := K.huntClose f .testClosing h
      split <;> next e => rw [e] at hc; first | exact K.hunt _ _ _ hc | exact K.endHunt f _ _ hc | exact hc

theorem isolate {s : State} (f : Feeder) (x : Hunt) (i n : Nat) (h : P s) : P (s.isolate f x i n) := by
  have h1 : ∀ y : Hunt, P ((s.putDevices (setNamed (namedOpen (s.sections.get f) (s.cond.get f).exclusion n)
      (namedClosed (s.sections.get f) n) s.link.devices)).putHunt f (some y)) := by
    intro y
    refine K.hunt _ _ _ (K.devices _ _ ?_ h)
    intro a d
    split
    · rfl
    · split <;> rfl
  unfold State.isolate
  dsimp only
  split
  · exact K.endHunt f _ _ (h1 _)
  · split
    · exact K.isolated f _ (h1 _)
    · exact h1 _

theorem takeStep {s : State} (f : Feeder) (x : Hunt) (h : P s) : P (s.takeStep f x) := by
  unfold State.takeStep
  dsimp only
  split
  · split
    · exact K.isolate f _ _ _ h
    · exact K.hunt _ _ _ h
  · exact K.beginRestore f _ (K.hunt _ _ _ h)

theorem openReport {s : State} (f : Feeder) (h : P s) : P (s.openReport f) := by
  unfold State.openReport
  split
  · exact h
  · split <;> first | exact K.takeStep f _ h | exact K.beginRestore f _ h | exact K.endHunt f _ _ h | exact h

theorem closedReport {s : State} (f : Feeder) (h : P s) : P (s.closedReport f) := by
  unfold State.closedReport
  split
  · exact h
  · split <;> first | exact K.hunt _ _ _ h | exact K.endHunt f _ _ h | exact h

theorem testTrip {s : State} (f : Feeder) (h : P s) : P (s.testTrip f) := by
  unfold State.testTrip
  split
  · exact h
  · split
    · exact K.hunt _ _ _ h
    · exact h

theorem askOpen {s : State} (f : Feeder) (h : P s) : P (s.askOpen f) := by
  have ho := K.huntOpen f h
  unfold State.askOpen
  split <;> next e => rw [e] at ho; first | exact K.openReport f ho | exact ho

theorem huntTrip {s : State} (f : Feeder) (x : HuntService) (h : P s) : P (s.huntTrip f x) := by
  have ho := K.huntOpen f h
  unfold State.huntTrip
  dsimp only
  split
  · exact h
  · split
    · exact h
    · have h1 : P (if x = .testClosing ∨ x = .testClosed then (s.huntOpen f).1.testTrip f else (s.huntOpen f).1) := by
        split
        · exact K.testTrip f ho
        · exact ho
      split
      · exact K.openReport f h1
      · exact h1

theorem holdExpires {s : State} (f : Feeder) (h : P s) : P (s.holdExpires f) := by
  unfold State.holdExpires
  split
  · exact h
  · split
    · exact K.askOpen f (K.hunt _ _ _ h)
    · exact h

theorem judgeNeeded {s : State} (f : Feeder) (h : P s) : P (s.judgeNeeded f) := by
  unfold State.judgeNeeded
  split
  · exact h
  · split
    · split <;> first | exact K.isolated f _ h | exact K.askRestoreClose f _ h | exact h
    · exact h

theorem huntCause {s : State} (f : Feeder) (c : Cause) (h : P s) : P (s.huntCause f c) := by
  unfold State.huntCause
  split
  · exact h
  · split <;> first | exact K.endHunt f _ _ h | exact K.endHunt f _ _ (K.huntOpen f h) | exact h

theorem huntExclusion {s : State} (f : Feeder) (h : P s) : P (s.huntExclusion f) := by
  unfold State.huntExclusion
  split
  · exact h
  · dsimp only
    split <;> (try split) <;> (try split)
    all_goals first
      | exact h
      | exact K.takeStep f _ h
      | exact K.askOpen f (K.hunt _ _ _ h)
      | exact K.hunt _ _ _ h

theorem huntDevice {s : State} (f : Feeder) (a : Nat) (t m : Option DeviceTrouble) (h : P s) : P (s.huntDevice f a t m) := by
  unfold State.huntDevice
  dsimp only
  split
  · exact h
  · split
    · split
      · exact K.endHunt f _ _ (K.huntOpen f h)
      · exact h
    · split
      · split
        · exact K.endHunt f _ _ h
        · exact K.judgeNeeded f h
      · exact h

theorem startHuntOn {s : State} (f : Feeder) (host : Bool) (l : Location) (ns : List Nat) (h : P s) :
    P (s.startHuntOn f host l ns) :=
  K.takeStep f _ (K.modSeqQuiet f _ (fun _ => ⟨id, Nat.zero_le _⟩) (K.hunt _ _ _ h))

theorem offerHunt {s : State} (f : Feeder) (h : P s) : P (s.offerHunt f) := by
  unfold State.offerHunt
  dsimp only
  split
  · exact K.startHuntOn f _ _ _ h
  · exact h

/-! ## Trips -/

theorem endTrip {s : State} (f : Feeder) (o : TripOrigin) (m : Bool) (h : P s) : P (s.endTrip f o m) := by
  have h1 : P (s.modSeq f Seq.releaseTrip) := K.modSeqQuiet f _ (fun _ => ⟨id, Nat.le_refl _⟩) h
  have out : ∀ c e, P (if (((s.modSeq f Seq.releaseTrip).seq.get f).offered o) = true
      then ((s.modSeq f Seq.releaseTrip).lockout f c e).offerHunt f
      else (s.modSeq f Seq.releaseTrip).lockout f c e) := by
    intro c e
    split
    · exact K.offerHunt f (K.lockout f c e h1)
    · exact K.lockout f c e h1
  unfold State.endTrip
  dsimp only
  split
  · exact out _ _
  · exact out _ _
  · split
    · exact out _ _
    · split
      · split
        · exact out _ _
        · exact K.modSeqQuiet f _ (fun _ => ⟨id, Nat.le_refl _⟩) h1
      · exact out _ _

theorem beginTrip {s : State} (f : Feeder) (o : TripOrigin) (m : Bool) (e : Option Element) (h : P s) :
    P (s.beginTrip f o m e) := by
  have h1 : P (s.modSeq f (fun r => { r.assertTrip.stopTimers with
      state := .tripping o m, tripElement := e, tripFail := some (s.tripFailTime f), huntTest := false })) :=
    K.modSeqQuiet f _ (fun r => ⟨fun e => absurd (e.symm.trans (assertTrip_closeDrive r)) (by decide), Nat.le_of_eq (assertTrip_shots r)⟩) h
  unfold State.beginTrip
  dsimp only
  split
  · exact K.endTrip f o m h1
  · exact h1

theorem tripRequest {s : State} (f : Feeder) (e : Element) (h : P s) : P (s.tripRequest f e) := by
  unfold State.tripRequest
  dsimp only
  split <;> try split
  all_goals first
    | exact h
    | exact K.beginTrip f _ _ _ h
    | exact K.huntTrip f _ h

/-! ## Permission Logic -/

theorem setWish {s : State} (f : Feeder) (w : Bool) (h : P s) : P (s.setWish f w) := by
  refine K.devices _ _ ?_ h
  intro a d
  split
  · simp only [Device.wished]
    split <;> rfl
  · rfl

theorem sequenceCause {s : State} (f : Feeder) (h : P s) : P (s.sequenceCause f) := by
  unfold State.sequenceCause
  split
  · exact K.lockout f _ _ h
  · exact h

theorem handOn {s : State} (f : Feeder) (old new : Condition) (h : P s) : P (s.handOn f old new) := by
  have h1 : P (if old.level = new.level then s else s.give (.feeder f) (.levelChange old.level new.level)) := by
    split
    · exact h
    · exact K.give _ _ _ h
  unfold State.handOn
  dsimp only
  generalize (if old.level = new.level then s else s.give (.feeder f) (.levelChange old.level new.level)) = s1 at h1 ⊢
  have h2 : P (if old.wish = new.wish then s1 else s1.setWish f new.wish) := by
    split
    · exact h1
    · exact K.setWish f _ h1
  generalize (if old.wish = new.wish then s1 else s1.setWish f new.wish) = s2 at h2 ⊢
  have h3 : P (if (Causes.fresh old.causes new.causes).any Cause.blocksReclose then s2.sequenceCause f else s2) := by
    split
    · exact K.sequenceCause f h2
    · exact h2
  generalize (if (Causes.fresh old.causes new.causes).any Cause.blocksReclose then s2.sequenceCause f else s2) = s3 at h3 ⊢
  have h4 : P (match (Causes.fresh old.causes new.causes).find? Cause.blocksHunt with
      | some c => s3.huntCause f c
      | none => s3) := by
    split
    · exact K.huntCause f _ h3
    · exact h3
  split
  · exact h4
  · exact K.huntExclusion f h4

end Kept

namespace KeptDerive

variable {P : State → Prop} (K : KeptDerive P)
include K

/-- A derivation keeps what its writes keep. -/
theorem derive {s : State} (f : Feeder) (h : P s) : P (s.derive f) := K.handOn f _ _ (K.cond s f h)

theorem deriveMany {s : State} (fs : List Feeder) (h : P s) : P (s.deriveMany fs) := by
  induction fs generalizing s with
  | nil => exact h
  | cons f rest ih => exact ih (K.derive f h)

theorem deriveQuietly {s : State} (f : Feeder) (h : P s) : P (s.deriveQuietly f) := by
  have h1 := K.cond s f h
  unfold State.deriveQuietly
  dsimp only
  apply K.setWish
  split
  · exact h1
  · exact K.give _ _ _ h1

end KeptDerive

end Sys2Proof.Machine
end

