-- ==== Sys2Proof/Laws/Table.lean ====
section
/-! SUPPORT. What the operations over tables in ascending order of number give. -/

namespace Sys2Proof.Machine

theorem Table.sorted_cons {α : Type} (n : Nat) (a : α) (t : Table α) :
    Table.sorted ((n, a) :: t) = true ↔ (∀ p ∈ t, n < p.1) ∧ Table.sorted t = true := by
  induction t generalizing n a with
  | nil => simp [Table.sorted]
  | cons p rest ih =>
    obtain ⟨k, b⟩ := p
    simp only [Table.sorted, Bool.and_eq_true, decide_eq_true_eq]
    constructor
    · rintro ⟨h1, h2⟩
      refine ⟨?_, h2⟩
      intro q hq
      rcases List.mem_cons.mp hq with rfl | hq
      · exact h1
      · exact Nat.lt_trans h1 ((ih k b).mp h2 |>.1 q hq)
    · rintro ⟨h1, h2⟩
      exact ⟨h1 (k, b) (List.mem_cons_self ..), h2⟩

/-- An ascending table stays so when its values change and its numbers do not. -/
theorem Table.sorted_map {α β : Type} (t : Table α) (g : Nat × α → Nat × β) (hg : ∀ p, (g p).1 = p.1)
    (h : Table.sorted t = true) : Table.sorted (t.map g) = true := by
  induction t with
  | nil => rfl
  | cons p rest ih =>
    obtain ⟨k, b⟩ := p
    have hs := (Table.sorted_cons k b rest).mp h
    have e : g (k, b) = ((g (k, b)).1, (g (k, b)).2) := rfl
    rw [List.map_cons, e, Table.sorted_cons]
    refine ⟨?_, ih hs.2⟩
    intro q hq
    obtain ⟨p, hp, rfl⟩ := List.mem_map.mp hq
    rw [hg, hg]
    exact hs.1 p hp

theorem Table.sorted_filter {α : Type} (t : Table α) (p : Nat × α → Bool) (h : Table.sorted t = true) :
    Table.sorted (t.filter p) = true := by
  induction t with
  | nil => rfl
  | cons x rest ih =>
    obtain ⟨k, b⟩ := x
    have hs := (Table.sorted_cons k b rest).mp h
    rw [List.filter_cons]
    split
    · rw [Table.sorted_cons]
      exact ⟨fun q hq => hs.1 q (List.mem_filter.mp hq).1, ih hs.2⟩
    · exact ih hs.2

/-- What a table holds after a put: the new thing and what it held. -/
theorem Table.mem_put {α : Type} (n : Nat) (a : α) (t : Table α) {p : Nat × α} (h : p ∈ Table.put n a t) :
    p = (n, a) ∨ p ∈ t := by
  induction t with
  | nil => simpa [Table.put] using h
  | cons x rest ih =>
    obtain ⟨k, b⟩ := x
    simp only [Table.put] at h
    split at h
    · simpa using h
    · split at h
      · rcases List.mem_cons.mp h with h | h
        · exact .inl h
        · exact .inr (List.mem_cons_of_mem _ h)
      · rcases List.mem_cons.mp h with h | h
        · exact .inr (h ▸ List.mem_cons_self ..)
        · rcases ih h with h | h
          · exact .inl h
          · exact .inr (List.mem_cons_of_mem _ h)

theorem Table.sorted_put {α : Type} (n : Nat) (a : α) (t : Table α) (h : Table.sorted t = true) :
    Table.sorted (Table.put n a t) = true := by
  induction t with
  | nil => rfl
  | cons x rest ih =>
    obtain ⟨k, b⟩ := x
    have hs := (Table.sorted_cons k b rest).mp h
    simp only [Table.put]
    split
    · next hn =>
      rw [Table.sorted_cons]
      refine ⟨?_, h⟩
      intro q hq
      rcases List.mem_cons.mp hq with rfl | hq
      · exact hn
      · exact Nat.lt_trans hn (hs.1 q hq)
    · split
      · next hn =>
        subst hn
        exact (Table.sorted_cons _ _ _).mpr hs
      · rw [Table.sorted_cons]
        refine ⟨?_, ih hs.2⟩
        intro q hq
        rcases Table.mem_put n a rest hq with rfl | hq
        · omega
        · exact hs.1 q hq

/-- A found number is in the table. -/
theorem Table.find_mem {α : Type} {t : Table α} {n : Nat} {a : α} (h : t.find n = some a) : (n, a) ∈ t := by
  induction t with
  | nil => cases h
  | cons x rest ih =>
    obtain ⟨k, b⟩ := x
    simp only [Table.find] at h
    split at h
    · next hk => cases h; subst hk; exact List.mem_cons_self ..
    · exact List.mem_cons_of_mem _ (ih h)

/-- In an ascending table a number is held once. -/
theorem Table.find_of_mem {α : Type} {t : Table α} (hs : Table.sorted t = true) {n : Nat} {a : α} (h : (n, a) ∈ t) :
    t.find n = some a := by
  induction t with
  | nil => cases h
  | cons x rest ih =>
    obtain ⟨k, b⟩ := x
    have h2 := (Table.sorted_cons k b rest).mp hs
    simp only [Table.find]
    rcases List.mem_cons.mp h with h | h
    · cases h
      simp
    · have := h2.1 _ h
      rw [if_neg (by simp only at this; omega)]
      exact ih h2.2 h

end Sys2Proof.Machine
end

