-- ==== Sys2Proof/Laws/Link.lean ====
section
/-! SUPPORT. What the operations of the Pole Link leave of the device table: its order, and the number of orders in flight. -/

namespace Sys2Proof.Machine

/-- The device table stands in strictly ascending order of address, and the orders in flight keep to the outstanding limit, which is
at most 4 (09 R164, R170). -/
def Link.sound (l : Link) : Prop :=
  l.devices.sorted = true ∧ inFlightCount l.devices ≤ l.limit ∧ l.limit ≤ 4

/-! ## Counting orders -/

theorem inFlightCount_cons (p : Nat × Device) (t : Table Device) :
    inFlightCount (p :: t) = (if p.2.inFlight.isSome then 1 else 0) + inFlightCount t := by
  unfold inFlightCount
  rw [List.filter_cons]
  split
  · rw [List.length_cons]; omega
  · omega

/-- A change that puts no order in flight adds none. -/
theorem inFlightCount_map_le (t : Table Device) (g : Nat × Device → Nat × Device)
    (hg : ∀ p ∈ t, (g p).2.inFlight.isSome = true → p.2.inFlight.isSome = true) :
    inFlightCount (t.map g) ≤ inFlightCount t := by
  induction t with
  | nil => exact Nat.le_refl _
  | cons p rest ih =>
    have h1 := ih (fun q hq => hg q (List.mem_cons_of_mem _ hq))
    have h2 := hg p (List.mem_cons_self ..)
    rw [List.map_cons, inFlightCount_cons, inFlightCount_cons]
    cases hgp : (g p).2.inFlight.isSome
    · simp; omega
    · simp [h2 hgp]; omega

theorem inFlightCount_filter_le (t : Table Device) (p : Nat × Device → Bool) : inFlightCount (t.filter p) ≤ inFlightCount t := by
  induction t with
  | nil => exact Nat.le_refl _
  | cons x rest ih =>
    rw [List.filter_cons]
    split
    · rw [inFlightCount_cons, inFlightCount_cons]; omega
    · rw [inFlightCount_cons]; omega

/-- A change of one device of an ascending table puts at most one order in flight. -/
theorem inFlightCount_modify_le (t : Table Device) (n : Nat) (g : Device → Device) (h : Table.sorted t = true) :
    inFlightCount (Table.modify t n g) ≤ inFlightCount t + 1 := by
  induction t with
  | nil => exact Nat.zero_le _
  | cons x rest ih =>
    obtain ⟨k, b⟩ := x
    have hs := (Table.sorted_cons k b rest).mp h
    have e : Table.modify ((k, b) :: rest) n g = (if k = n then (k, g b) else (k, b)) :: Table.modify rest n g := rfl
    rw [e, inFlightCount_cons, inFlightCount_cons]
    have hi := ih hs.2
    by_cases hk : k = n
    · have hr : Table.modify rest n g = rest := by
        have : rest.map (fun p => if p.1 = n then (p.1, g p.2) else p) = rest.map id := by
          apply List.map_congr_left
          intro p hp
          have := hs.1 p hp
          rw [if_neg (by omega)]
          rfl
        simpa [Table.modify] using this
      rw [hr]
      rw [if_pos hk]
      dsimp only
      split <;> split <;> omega
    · rw [if_neg hk]; omega

theorem inFlightCount_put_le (t : Table Device) (n : Nat) (d : Device) (hd : d.inFlight = none) :
    inFlightCount (Table.put n d t) ≤ inFlightCount t := by
  induction t with
  | nil => simp [Table.put, inFlightCount, hd]
  | cons x rest ih =>
    obtain ⟨k, b⟩ := x
    simp only [Table.put]
    split
    · rw [inFlightCount_cons, inFlightCount_cons]; simp [hd]
    · split
      · rw [inFlightCount_cons, inFlightCount_cons]; simp [hd]
      · rw [inFlightCount_cons, inFlightCount_cons]; omega

/-! ## Soundness -/

/-- A device table changed in its values alone, with no order put in flight, stays sound. -/
theorem Link.sound_map {l m : Link} (g : Nat × Device → Nat × Device) (hk : ∀ p, (g p).1 = p.1)
    (hg : ∀ p ∈ l.devices, (g p).2.inFlight.isSome = true → p.2.inFlight.isSome = true)
    (hm : m.devices = l.devices.map g) (hl : m.limit = l.limit) (h : l.sound) : m.sound := by
  obtain ⟨h1, h2, h3⟩ := h
  refine ⟨?_, ?_, ?_⟩
  · rw [hm]; exact Table.sorted_map _ g hk h1
  · rw [hm, hl]; exact Nat.le_trans (inFlightCount_map_le _ g hg) h2
  · rw [hl]; exact h3

/-- A link with the same device table and the same limit is as sound. -/
theorem Link.sound_same {l m : Link} (hm : m.devices = l.devices) (hl : m.limit = l.limit) (h : l.sound) : m.sound := by
  unfold Link.sound at *
  rw [hm, hl]; exact h

theorem Table.modify_eq_map {α : Type} (t : Table α) (n : Nat) (g : α → α) :
    Table.modify t n g = t.map (fun p => if p.1 = n then (p.1, g p.2) else p) := rfl

theorem Link.sound_modify {l m : Link} (n : Nat) (g : Device → Device)
    (hg : ∀ d, (n, d) ∈ l.devices → (g d).inFlight.isSome = true → d.inFlight.isSome = true)
    (hm : m.devices = l.devices.modify n g) (hl : m.limit = l.limit) (h : l.sound) : m.sound := by
  refine Link.sound_map _ ?_ ?_ (hm.trans (Table.modify_eq_map _ _ _)) hl h
  · intro p; split <;> rfl
  · intro p hp
    split
    · next e => intro hs; exact hg p.2 (by rw [← e]; exact hp) hs
    · exact id

theorem Link.sound_arbitrate (l : Link) (h : l.sound) : l.arbitrate.sound := by
  unfold Link.arbitrate
  split
  · next hc =>
    split
    · split
      · obtain ⟨h1, h2, h3⟩ := h
        refine ⟨?_, ?_, h3⟩
        · exact Table.sorted_map _ _ (fun p => by dsimp only; split <;> rfl) h1
        · simp only [Link.issue]
          exact Nat.le_trans (inFlightCount_modify_le _ _ _ h1) hc.2.2.2
      · exact h
    · exact h
  · exact h

theorem Link.sound_startResend (l : Link) (h : l.sound) : l.startResend.sound := by
  unfold Link.startResend
  repeat' split
  all_goals exact Link.sound_same rfl rfl h

theorem Link.sound_startClear (l : Link) (h : l.sound) : l.startClear.sound := by
  unfold Link.startClear
  split <;> exact Link.sound_same rfl rfl h

theorem Link.sound_frameSent (l : Link) (h : l.sound) : l.frameSent.sound := by
  unfold Link.frameSent
  split
  · exact h
  · exact Link.sound_same rfl rfl h
  · refine Link.sound_modify _ _ ?_ rfl rfl h
    intro d _ hd
    simpa [Device.sent] using hd

theorem Link.sound_clear (l : Link) (h : l.sound) : l.clear.sound := by
  refine Link.sound_map (l := l) (fun p => (p.1, p.2.cleared)) (fun p => rfl) ?_ rfl rfl h
  intro p _ hp
  cases hp

theorem Link.sound_tick (l : Link) (h : l.sound) : l.tick.sound := by
  refine Link.sound_map (l := l) (fun p => (p.1, p.2.tick)) (fun p => rfl) ?_ rfl rfl h
  intro p _ hp
  simpa [Device.tick] using hp

end Sys2Proof.Machine
end

