-- ==== Sys2Proof/Laws/Store.lean ====
section
/-! SUPPORT. What the operations of the Settings Store keep of the shot counts that it holds (02 R27, R36). -/

namespace Sys2Proof.Machine

/-- The shot counts of a store in terms of its records and of the commit in flight. -/
theorem Store.shotsSound_iff (t : Store) : t.shotsSound = true ↔
    (∀ f g c, ((t.groups.get f).get g).validContent = some c → c.shotCount ≤ 4)
      ∧ (∀ f g c, t.staging = .committing (.group f g c) → c.shotCount ≤ 4) := by
  unfold Store.shotsSound
  rw [Bool.and_eq_true]
  refine and_congr ?_ ?_
  · constructor
    · intro h f g c hc
      have h1 := List.all_eq_true.mp (List.all_eq_true.mp h f (Ix4.mem_all f)) g (Ix4.mem_all g)
      simpa [hc] using h1
    · intro h
      refine List.all_eq_true.mpr fun f _ => List.all_eq_true.mpr fun g _ => ?_
      cases hc : ((t.groups.get f).get g).validContent with
      | none => rfl
      | some c => simpa using h f g c hc
  · constructor
    · intro h f g c hc
      rw [hc] at h
      simpa using h
    · intro h
      split
      · next hs => simpa using h _ _ _ hs
      · rfl
      · rfl
      · rfl

/-- A group that passes the commit check has a shot count of at most 4 (02 R36). -/
theorem Store.shotCount_of_commitCheck (t : Store) (f : Feeder) (g : GroupNo) (c : Group)
    (h : t.commitCheck (.group f g c) = none) : c.shotCount ≤ 4 := by
  have h1 : firstBad groupFields c = none := by
    simp only [Store.commitCheck] at h
    cases hb : firstBad groupFields c with
    | none => rfl
    | some x => rw [hb] at h; cases h
  have h2 : ∀ x ∈ groupFields, x.good c = true := by
    simpa [firstBad, List.find?_eq_none] using h1
  have h3 := h2 (groupField 9 (within 0 4) (·.shotCount) (fun n g => { g with shotCount := n }) 1) (by
    simp [groupFields])
  simpa [Field.good, groupField, within] using h3

theorem Store.shotsSound_staging {t : Store} (x : Staging) (n : Nat)
    (hx : ∀ f g c, x = .committing (.group f g c) → c.shotCount ≤ 4) (h : t.shotsSound = true) :
    Store.shotsSound { t with staging := x, scrub := n } = true := by
  rw [Store.shotsSound_iff] at h ⊢
  exact ⟨h.1, hx⟩

/-- A record written FAULTY holds no VALID shot count, and one written VALID holds that of its content. -/
theorem Store.shotsSound_write {t : Store} (x : Target) (v : Bool) (c : Content) (w : Word16)
    (hc : v = true → ∀ g, c = .group g → g.shotCount ≤ 4) (h : t.shotsSound = true) :
    (t.write x v c w).shotsSound = true := by
  rw [Store.shotsSound_iff] at h ⊢
  unfold Store.write
  split
  · next f g c =>
    refine ⟨?_, h.2⟩
    intro f2 g2 c2 h2
    dsimp only at h2
    rw [Four.get_set] at h2
    split at h2
    · rw [Four.get_set] at h2
      split at h2
      · cases v
        · cases h2
        · cases h2
          exact hc rfl _ rfl
      · next e _ => exact h.1 f g2 c2 h2
    · exact h.1 f2 g2 c2 h2
  · exact h
  · exact h
  · exact h

end Sys2Proof.Machine
end

