-- ==== Sys2Proof/Laws/KeptExec.lean ====
section
/-! SUPPORT. What every command of the part keeps: a property of states that each kind of write of a command keeps, as well as those
of Laws/Kept.lean, is kept by every step. -/

namespace Sys2Proof.Machine

/-- The most that the progress of an element reaches. -/
def Element.most (e : Element) : Nat := if e.inverse then fullSum else fullCount

/-- A property of states that every kind of write of a command keeps. -/
structure KeptAll (P : State → Prop) : Prop extends KeptDerive P where
  port : ∀ s p, P s → P { s with port := p }
  timers : ∀ s p x t n, P s → P { s with att := { s.att with period := p, action := x, timer := t, expiries := n } }
  judged : ∀ s (a : Attention), (s.att.ordered = true → a.ordered = true) → P s → P { s with att := a.judge }
  contacts : ∀ s c, P s → P { s with contacts := c }
  sample : ∀ s f m, P s → P (s.putSample f m)
  engine : ∀ s f e, (∀ x, (e.elements.get x).progress ≤ x.most
      ∨ (e.elements.get x).progress ≤ ((s.engine.get f).elements.get x).progress) → P s → P (s.putEngine f e)
  store : ∀ s t, (s.store.shotsSound = true → t.shotsSound = true) → P s → P { s with store := t }
  cal : ∀ s c, P s → P { s with cal := c }
  perms : ∀ s i b, P s → P { s with inputs := i, latch := b }
  sections : ∀ s f t, P s → P (s.putSections f t)
  fewerTags : ∀ s p, P s → P { s with tags := s.tags.filter p }
  sameTags : ∀ s g, (∀ t, (g t).number = t.number ∧ (g t).feeder = t.feeder ∧ (g t).kind = t.kind) → P s →
    P { s with tags := s.tags.map g }
  place : ∀ s t, s.placeCheck t = none → P s → P (({ s with tags := s.tags ++ [t] }).derive t.feeder)
  link : ∀ s l, (s.link.sound → l.sound) → P s → P { s with link := l }
  tick : ∀ s, P s → P s.tick
  cold : ∀ pins q, P (State.cold pins q)
  warm : ∀ s (pins : Pins), P s → P { s with
    contacts := pins.contacts
    backup := false
    sample := Four.fill coldSample
    engine := Four.fill coldEngine
    store := s.store.warm
    seq := pins.contacts.map (resetSeq .warmReset)
    inputs := s.inputs.map Inputs.warm
    latch := false
    link := s.link.warm pins.carrier
    att := s.att.warm }

/-! ## The commands that change nothing -/

theorem readStartReason_same (a : Unit) (s : State) : (Machine.readStartReason a s).1 = s := by
  unfold Machine.readStartReason
  all_goals rfl

theorem readElements_same (a : Nat) (s : State) : (Machine.readElements a s).1 = s := by
  unfold Machine.readElements Machine.onFeeder
  repeat' first | rfl | split

theorem readStaging_same (a : Unit) (s : State) : (Machine.readStaging a s).1 = s := by
  unfold Machine.readStaging
  all_goals rfl

theorem readStoreStatus_same (a : Unit) (s : State) : (Machine.readStoreStatus a s).1 = s := by
  unfold Machine.readStoreStatus
  all_goals rfl

theorem readFeeder_same (a : Nat) (s : State) : (Machine.readFeeder a s).1 = s := by
  unfold Machine.readFeeder Machine.onFeeder
  repeat' first | rfl | split

theorem readTag_same (a : Nat) (s : State) : (Machine.readTag a s).1 = s := by
  unfold Machine.readTag
  repeat' first | rfl | split

theorem listTags_same (a : ListTagsFields) (s : State) : (Machine.listTags a s).1 = s := by
  unfold Machine.listTags
  repeat' first | rfl | split

theorem readCalendar_same (a : Unit) (s : State) : (Machine.readCalendar a s).1 = s := by
  unfold Machine.readCalendar
  all_goals rfl

theorem readWindow_same (a : Nat) (s : State) : (Machine.readWindow a s).1 = s := by
  unfold Machine.readWindow
  repeat' first | rfl | split

theorem readEntry_same (a : Nat) (s : State) : (Machine.readEntry a s).1 = s := by
  unfold Machine.readEntry Machine.onEntry
  repeat' first | rfl | split

theorem listEntries_same (a : Nat × Nat) (s : State) : (Machine.listEntries a s).1 = s := by
  unfold Machine.listEntries
  repeat' first | rfl | split

theorem readLevels_same (a : Unit) (s : State) : (Machine.readLevels a s).1 = s := by
  unfold Machine.readLevels
  all_goals rfl

theorem readCondition_same (a : Nat) (s : State) : (Machine.readCondition a s).1 = s := by
  unfold Machine.readCondition Machine.onFeeder
  repeat' first | rfl | split

theorem readSection_same (a : Nat × Nat) (s : State) : (Machine.readSection a s).1 = s := by
  unfold Machine.readSection Machine.onSection Machine.onFeeder
  repeat' first | rfl | split

theorem listSections_same (a : Nat) (s : State) : (Machine.listSections a s).1 = s := by
  unfold Machine.listSections Machine.onFeeder
  repeat' first | rfl | split

theorem locate_same (a : Nat × Option Nat) (s : State) : (Machine.locate a s).1 = s := by
  unfold Machine.locate Machine.onFeeder
  repeat' first | rfl | split

theorem readHunt_same (a : Nat) (s : State) : (Machine.readHunt a s).1 = s := by
  unfold Machine.readHunt Machine.onHunt Machine.onFeeder
  split
  · dsimp only
    split <;> rfl
  · rfl

theorem readDevice_same (a : Nat) (s : State) : (Machine.readDevice a s).1 = s := by
  unfold Machine.readDevice Machine.onDevice
  repeat' first | rfl | split

theorem listDevices_same (a : Option Nat) (s : State) : (Machine.listDevices a s).1 = s := by
  unfold Machine.listDevices Machine.onFeeder
  repeat' first | rfl | split

theorem readLink_same (a : Unit) (s : State) : (Machine.readLink a s).1 = s := by
  unfold Machine.readLink
  all_goals rfl

theorem readAttention_same (a : Unit) (s : State) : (Machine.readAttention a s).1 = s := by
  unfold Machine.readAttention
  all_goals rfl

theorem readGroup_same (a : Nat × Nat) (s : State) : (Machine.readGroup a s).1 = s := by
  unfold Machine.readGroup
  repeat' first | rfl | split

theorem readCurve_same (a : Nat) (s : State) : (Machine.readCurve a s).1 = s := by
  unfold Machine.readCurve
  repeat' first | rfl | split

theorem readConstants_same (a : Nat) (s : State) : (Machine.readConstants a s).1 = s := by
  unfold Machine.readConstants Machine.onFeeder
  repeat' first | rfl | split

/-- What is left of an ordered pending set is ordered. -/
theorem Attention.ordered_filter {a : Attention} {keep : Notice → Bool} (h : a.ordered = true) :
    ({ a with notices := a.notices.filter keep } : Attention).ordered = true :=
  decide_eq_true ((of_decide_eq_true h).sublist ((List.filter_sublist).map _))

namespace KeptAll

variable {P : State → Prop} (K : KeptAll P)
include K

/-! ## The shared operations of the commands -/

theorem answer {s : State} (c : Byte) (r : Reply) (h : P s) : P (s.answer c r) := K.port s _ h

theorem restartSupervision {s : State} (h : P s) : P s.restartSupervision := K.timers s _ _ _ _ h

theorem putInputs {s : State} (f : Feeder) (i : Inputs) (h : P s) : P (s.putInputs f i) := K.perms s _ s.latch h

theorem putStaging {s : State} (g : Staging) (hg : ∀ f n c, g = .committing (.group f n c) → c.shotCount ≤ 4) (h : P s) :
    P (s.putStaging g) := K.store s _ (Store.shotsSound_staging g s.store.scrub hg) h

theorem senseCarrier {s : State} (b : Bool) (h : P s) : P (s.senseCarrier b) := K.link s _ (Link.sound_same rfl rfl) h

theorem putDevices {s : State} (t : Table Device) (ht : s.link.sound → (Link.sound { s.link with devices := t })) (h : P s) :
    P (s.putDevices t) := K.link s _ ht h

/-! ## Tags -/

theorem retireTag {s : State} (t : Tag) (h : P s) : P (s.retireTag t) := K.derive _ (K.fewerTags s _ h)

theorem badAttempt {s : State} (t : Tag) (x : Holder) (h : P s) : P (s.badAttempt t x) := by
  have h1 : P (s.modTag t.number (fun u => { u with badAttempts := t.badAttempts + 1, frozen := decide (3 ≤ t.badAttempts + 1) })) :=
    K.sameTags s _ (fun u => by dsimp only; split <;> exact ⟨rfl, rfl, rfl⟩) h
  unfold State.badAttempt
  dsimp only
  split
  · exact K.give _ _ _ h1
  · exact h1

theorem expireTags {s : State} (m : Minute) (h : P s) : P (s.expireTags m).1 := by
  have h1 := K.fewerTags s (fun t => !t.expired m) h
  unfold State.expireTags
  dsimp only
  generalize (Ix4.all.filter _) = fs
  generalize ({ s with tags := s.tags.filter (fun t => !t.expired m) } : State) = u at h1 ⊢
  induction fs generalizing u with
  | nil => exact h1
  | cons f rest ih =>
    apply ih
    unfold State.expiryNotice
    split
    · exact K.give _ _ _ h1
    · exact h1

theorem expireAndTell {s : State} (m : Minute) (h : P s) : P (s.expireAndTell m) := K.deriveMany _ (K.expireTags m h)

/-! ## The calendar -/

theorem settleLevels {s : State} (h : P s) : P s.settleLevels := K.deriveMany _ (K.cal s _ h)

theorem recalendar {s : State} (g : Calendar → Calendar) (h : P s) : P (s.recalendar g) := K.settleLevels (K.cal s _ h)

theorem takeMinute {s : State} (k : Clock) (d : Carry) (m : Mask) (x : MinuteTaker) (h : P s) : P (s.takeMinute k d m x) := by
  cases x
  · exact K.expireAndTell _ h
  · exact K.recalendar (fun c => c.expireDeclarations k.minute d.yearWrap m) h
  · exact K.recalendar (fun c => c.fire k) h
  · unfold State.takeMinute
    dsimp only
    split
    · exact K.recalendar _ h
    · exact h

theorem minuteChange {s : State} (k : Clock) (d : Carry) (o : List MinuteTaker) (h : P s) : P (s.minuteChange k d o) := by
  unfold State.minuteChange
  generalize s.cal.kept k o = m
  induction o generalizing s with
  | nil => exact h
  | cons x rest ih => exact ih (K.takeMinute k d m x h)

theorem tickCalendar {s : State} (o : List MinuteTaker) (h : P s) : P (s.tickCalendar o) := by
  unfold State.tickCalendar
  dsimp only
  split
  · exact K.minuteChange _ _ o (K.cal s _ h)
  · exact K.cal s _ h

theorem setClock {s : State} (k : Clock) (h : P s) : P (s.setClock k) := by
  unfold State.setClock
  dsimp only
  split
  · exact K.deriveMany _ (K.settleLevels (K.expireAndTell _ (K.cal s _ h)))
  · exact K.settleLevels (K.expireAndTell _ (K.cal s _ h))

theorem calendarAfterReset {s : State} (n : Nat) (h : P s) : P (s.calendarAfterReset n) := by
  unfold State.calendarAfterReset
  dsimp only
  split
  · exact K.cal s _ h
  · exact K.expireTags _ (K.cal s _ h)

/-! ## Resets and the port -/

theorem warmBlocks {s : State} (pins : Pins) (h : P s) : P (s.warmBlocks pins) := by
  refine K.warm _ pins ?_
  generalize Ix4.all = fs
  induction fs generalizing s with
  | nil => exact h
  | cons f rest ih =>
    apply ih
    unfold State.warmHunt
    split
    · split
      · exact h
      · exact K.finishHunt f _ _ _ h
    · exact h

theorem warmReset {s : State} (x : StartKind) (pins : Pins) (h : P s) : P (s.warmReset x pins) := by
  have h1 := K.calendarAfterReset pins.ticks (K.warmBlocks pins h)
  unfold State.warmReset
  apply K.port
  generalize Ix4.all = fs
  generalize (s.warmBlocks pins).calendarAfterReset pins.ticks = u at h1 ⊢
  induction fs generalizing u with
  | nil => exact h1
  | cons f rest ih => exact ih _ (K.deriveQuietly f h1)

/-- The end of a transaction keeps what its judging keeps. -/
theorem endTransaction {s : State} (g : State → State) (hg : P s → P (g s)) (h : P s) : P (s.endTransaction g) := by
  unfold State.endTransaction
  split
  · exact hg h
  · exact K.warmReset _ _ h
  · exact K.port _ _ h

/-- A good frame keeps what its dispatch keeps. -/
theorem goodFrame {s : State} (g : State → State) (hg : ∀ u, P u → P (g u)) (h : P s) {t : State}
    (e : Machine.goodFrame s g = .next t) : P t := by
  cases e
  exact K.endTransaction _ (fun h => hg _ (K.restartSupervision h)) h

/-- A host command keeps what its rule keeps. -/
theorem serve {α : Type} {s : State} (n : Nat) (reader : Payload → Option α) (act : α → State → State × Reply)
    (p : Payload) (ha : ∀ a u, P u → P (act a u).1) (h : P s) {t : State} (e : Machine.serve n reader act p s = .next t) : P t := by
  refine K.goodFrame _ ?_ h e
  intro u hu
  unfold Machine.dispatch
  split
  · exact K.answer _ _ hu
  · exact K.answer _ _ (ha _ _ hu)

omit K in
theorem onFeeder {s : State} (n : Nat) (k : Feeder → State × Reply) (hk : ∀ f, P (k f).1) (h : P s) :
    P (Machine.onFeeder n s k).1 := by
  unfold Machine.onFeeder
  split
  · exact hk _
  · exact h

omit K in
theorem busy {α : Type} {s : State} (act : α → State → State × Reply) (a : α) (ha : P (act a s).1) (h : P s) :
    P (busyWhileCommitting act a s).1 := by
  unfold busyWhileCommitting
  split
  · exact h
  · exact ha

/-! ## Measurement -/

omit K in
/-- An evaluation leaves the progress of an element within its bound, or no higher than it was. -/
theorem evaluate_progress (x : Setting) (p : Report) (r : ElementRecord) :
    (Machine.evaluate x p r).1.progress ≤ x.element.most ∨ (Machine.evaluate x p r).1.progress ≤ r.progress := by
  unfold Machine.evaluate
  dsimp only
  split
  · exact .inl (Nat.zero_le _)
  · split
    · split
      · next hi =>
        split
        · exact .inl (by simp only [riseSum, Element.most, hi]; exact Nat.min_le_left _ _)
        · exact .inl (Nat.zero_le _)
      · next hi => exact .inl (by simp only [riseCount, Element.most, hi]; exact Nat.min_le_left _ _)
    · refine .inr ?_
      dsimp only
      split
      · unfold decay
        split
        · exact Nat.zero_le _
        · exact Nat.sub_le _ _
      · exact Nat.zero_le _

theorem handTrip {s : State} (p : Report) (n : Element) (o : List Element) (h : P s) : P (s.handTrip p n o) := by
  have h1 := K.give s (.feeder p.feeder) (.trip n (s.seq.get p.feeder).shots) h
  have h2 : P (if (s.seq.get p.feeder).position = .opened then
      (s.give (.feeder p.feeder) (.trip n (s.seq.get p.feeder).shots)).give (.feeder p.feeder) (.positionAlarm (.element n))
      else s.give (.feeder p.feeder) (.trip n (s.seq.get p.feeder).shots)) := by
    split
    · exact K.give _ _ _ h1
    · exact h1
  unfold State.handTrip
  exact K.tripRequest _ _ (K.engine _ _ _ (fun x => .inr (Nat.le_refl _)) h2)

theorem evaluateReport {s : State} (p : Report) (h : P s) : P (s.evaluateReport p) := by
  have h1 : P (s.putEngine p.feeder { s.engine.get p.feeder with
      elements := Five.build (fun e => ((Five.build (fun e =>
        Machine.evaluate (s.settingOf p e) p ((s.engine.get p.feeder).elements.get e))).get e).1) }) := by
    refine K.engine _ _ _ (fun x => ?_) h
    simp only [Five.get_build]
    exact evaluate_progress (s.settingOf p x) p _
  unfold State.evaluateReport
  dsimp only
  split
  · exact h1
  · exact K.handTrip _ _ _ h1

theorem setMeasLost {s : State} (f : Feeder) (b : Bool) (h : P s) : P (s.setMeasLost f b) := K.derive f (K.putInputs f _ h)

theorem takeReport {s : State} (p : Report) (h : P s) : P (s.takeReport p) := by
  have h1 := K.sample s p.feeder ((s.sample.get p.feeder).heard p.sequence) h
  unfold State.takeReport
  apply K.evaluateReport
  split
  · exact K.setMeasLost _ _ h1
  · exact h1

theorem watchExpires {s : State} (f : Feeder) (h : P s) : P (s.watchExpires f) := by
  unfold State.watchExpires
  dsimp only
  split
  · exact K.sample _ _ _ h
  · split
    · exact K.sample _ _ _ h
    · refine K.setMeasLost _ _ (K.give _ _ _ (K.engine _ _ _ (fun x => .inl ?_) (K.sample _ _ _ h)))
      simp only [Five.get_fill]
      exact Nat.zero_le _
  · exact h

/-! ## The store -/

theorem tellRecord {s : State} (x : Target) (h : P s) : P (s.tellRecord x) := by
  cases x
  · exact K.derive _ h
  · exact h
  · exact K.derive _ h

theorem scrub {s : State} (c : Option Content) (h : P s) : P (s.scrub c) := by
  unfold State.scrub
  split
  · exact h
  · next n _ _ _ _ =>
    have hs : s.store.shotsSound = true → Store.shotsSound { s.store with scrub := n % 24 + 1 } = true := fun hs =>
      Store.shotsSound_staging s.store.staging _ ((Store.shotsSound_iff _).mp hs).2 hs
    dsimp only
    split
    · exact K.store s _ hs h
    · exact K.tellRecord _ (K.give _ _ _ (K.store s _ (fun e =>
        Store.shotsSound_write _ false _ _ (fun e => by cases e) (hs e)) h))

theorem completeCommit {s : State} (d : Draft) (c : Option Content) (hd : s.store.staging = .committing d) (h : P s) :
    P (s.completeCommit d c) := by
  have hg : s.store.shotsSound = true → ∀ g, d.content = .group g → g.shotCount ≤ 4 := by
    intro hs g e
    cases d with
    | group f n x => cases e; exact ((Store.shotsSound_iff _).mp hs).2 _ _ _ hd
    | curve n x => cases e
    | feeder f x => cases e
  have hw : ∀ (v : Bool) (w : Word16) (x : Staging), (∀ f n y, x ≠ .committing (.group f n y)) →
      s.store.shotsSound = true → Store.shotsSound { s.store.write d.target v d.content w with staging := x } = true := by
    intro v w x hx hs
    exact Store.shotsSound_staging (t := s.store.write d.target v d.content w) x _
      (fun f n y e => absurd e (hx f n y)) (Store.shotsSound_write _ _ _ _ (fun _ => hg hs) hs)
  unfold State.completeCommit
  dsimp only
  split
  · exact K.tellRecord _ (K.give _ _ _ (K.store s _ (hw _ _ _ (fun _ _ _ e => by cases e)) h))
  · exact K.tellRecord _ (K.give _ _ _ (K.give _ _ _ (K.store s _ (hw _ _ _ (fun _ _ _ e => by cases e)) h)))

/-! ## The breaker -/

theorem alarm {s : State} (f : Feeder) (d : AlarmDetail) (h : P s) : P (s.alarm f d) := K.give _ _ _ h

theorem unaskedOpen {s : State} (f : Feeder) (h : P s) : P (s.unaskedOpen f) :=
  K.alarm _ _ (K.lockout _ _ _ (K.modSeqQuiet _ _ (fun _ => ⟨fun e => (by cases e), Nat.le_refl _⟩) (K.closeHunt _ _ _ h)))

theorem unaskedClose {s : State} (f : Feeder) (h : P s) : P (s.unaskedClose f) :=
  K.alarm _ _ (K.modSeqQuiet _ _ (fun _ => ⟨id, Nat.zero_le _⟩) (K.closeHunt _ _ _ h))

theorem huntSeenOpen {s : State} (f : Feeder) (x : HuntService) (h : P s) : P (s.huntSeenOpen f x) := by
  unfold State.huntSeenOpen
  split
  · exact K.openReport _ (K.modSeqQuiet _ _ (fun _ => ⟨id, Nat.le_refl _⟩) h)
  all_goals exact K.unaskedOpen _ h

theorem huntSeenClosed {s : State} (f : Feeder) (x : HuntService) (h : P s) : P (s.huntSeenClosed f x) := by
  unfold State.huntSeenClosed
  split
  · exact K.closedReport _ (K.modSeqQuiet _ _ (fun _ => ⟨fun e => (by cases e), Nat.le_refl _⟩) h)
  · exact K.closedReport _ (K.modSeqQuiet _ _ (fun _ => ⟨fun e => (by cases e), Nat.le_refl _⟩) h)
  · exact h
  · exact K.unaskedClose _ h
  · exact K.unaskedClose _ h

theorem seenOpen {s : State} (f : Feeder) (h : P s) : P (s.seenOpen f) := by
  unfold State.seenOpen
  split
  · exact K.endTrip _ _ _ h
  · exact K.lockout _ _ _ (K.modSeqQuiet _ _ (fun _ => ⟨id, Nat.le_refl _⟩) h)
  · exact K.alarm _ _ (K.lockout _ _ _ h)
  · exact K.alarm _ _ (K.lockout _ _ _ h)
  · exact h
  · exact h
  · exact h
  · exact K.huntSeenOpen _ _ h

theorem seenClosed {s : State} (f : Feeder) (h : P s) : P (s.seenClosed f) := by
  unfold State.seenClosed
  split
  · unfold State.closeMade
    dsimp only
    split
    · exact K.modSeqQuiet _ _ (fun _ => ⟨fun e => (by cases e), Nat.le_refl _⟩) h
    · exact K.modSeqQuiet _ _ (fun _ => ⟨fun e => (by cases e), Nat.zero_le _⟩) h
  · exact K.alarm _ _ (K.modSeqQuiet _ _ (fun _ => ⟨id, Nat.zero_le _⟩) h)
  · exact K.alarm _ _ (K.modSeqQuiet _ _ (fun _ => ⟨id, Nat.zero_le _⟩) h)
  · exact h
  · exact h
  · exact h
  · exact h
  · exact K.huntSeenClosed _ _ h

theorem positionChange {s : State} (f : Feeder) (x : Position) (h : P s) : P (s.positionChange f x) := by
  have h1 : P (s.modSeq f (fun r => { r with position := x })) := K.modSeqQuiet _ _ (fun _ => ⟨id, Nat.le_refl _⟩) h
  unfold State.positionChange
  dsimp only
  split
  · exact K.seenOpen _ h1
  · exact K.seenClosed _ h1
  · exact h1
  · exact K.alarm _ _ h1

theorem tripFails {s : State} (f : Feeder) (h : P s) : P (s.tripFails f) := by
  unfold State.tripFails
  split <;> first
    | exact K.breakerFails _ _ h
    | exact K.breakerFails _ _ (K.closeHunt _ _ _ h)
    | exact h

theorem closeLost {s : State} (f : Feeder) (h : P s) : P (s.closeLost f) :=
  K.alarm _ _ (K.lockout _ _ _ (K.modSeqQuiet _ _ (fun _ => ⟨fun e => (by cases e), Nat.le_refl _⟩) h))

theorem closeFails {s : State} (f : Feeder) (h : P s) : P (s.closeFails f) := by
  unfold State.closeFails
  split <;> first
    | exact K.closeLost _ h
    | exact K.closeLost _ (K.closeHunt _ _ _ h)
    | exact h

theorem deadEnds {s : State} (f : Feeder) (h : P s) : P (s.deadEnds f) := by
  unfold State.deadEnds
  dsimp only
  split
  · exact K.lockout _ _ _ h
  · next hb =>
    split
    · refine K.modSeq _ _ ⟨fun _ => .inr ?_, .inr ?_⟩ h
      · apply Causes.tagNoClose_of_any _ Cause.blocksReclose rfl
        simpa using fun e => hb (.inl e)
      · exact Nat.lt_of_not_le fun e => hb (.inr e)
    · exact K.alarm _ _ (K.lockout _ _ _ h)

theorem openFromHunt {s : State} (f : Feeder) (h : P s) : P (s.openFromHunt f) := by
  unfold State.openFromHunt
  dsimp only
  split
  · exact K.modSeqQuiet _ _ (fun _ => ⟨id, Nat.le_refl _⟩) h
  · split
    · exact K.lockout _ _ _ (K.modSeqQuiet _ _ (fun _ => ⟨fun e => (by cases e), Nat.le_refl _⟩) h)
    · exact K.beginTrip _ _ _ _ h

theorem hostOpen {s : State} (f : Feeder) (h : P s) : P (s.hostOpen f) := by
  unfold State.hostOpen
  dsimp only
  split <;> (try split) <;> first
    | exact K.beginTrip _ _ _ _ h
    | exact K.modSeqQuiet _ _ (fun _ => ⟨id, Nat.le_refl _⟩) h
    | exact K.lockout _ _ _ h
    | exact K.openFromHunt _ (K.closeHunt _ _ _ h)
    | exact h

theorem clearFail {s : State} (f : Feeder) (h : P s) : P (s.clearFail f) := by
  have h1 : P (s.modSeq f Seq.releaseTrip) := K.modSeqQuiet _ _ (fun _ => ⟨id, Nat.le_refl _⟩) h
  unfold State.clearFail
  dsimp only
  split
  · exact K.modSeqQuiet _ _ (fun _ => ⟨id, Nat.zero_le _⟩) h1
  · exact K.lockout _ _ _ h1

/-! ## The link -/

theorem endOrder {s : State} (a : Nat) (old new : Device) (t : Option DeviceTrouble) (h : P s) :
    P (s.endOrder a old new t) := by
  have h1 : P { s with link := { s.link with
      devices := s.link.devices.modify a (fun _ => { new with inFlight := none })
      resends := s.link.resends.filter (· != a) } } := by
    refine K.link s _ (Link.sound_modify a (fun _ => { new with inFlight := none }) ?_ rfl rfl) h
    intro d _ e
    cases e
  unfold State.endOrder
  dsimp only
  split
  · exact K.huntDevice _ _ _ _ h1
  · exact h1

theorem takeReply {s : State} (r : ReplyFrame) (h : P s) : P (s.takeReply r) := by
  unfold State.takeReply State.completeOrder State.linkFault
  split
  · exact h
  · split
    · exact h
    · split
      · dsimp only
        split
        · exact K.endOrder _ _ _ _ h
        · split
          · exact K.endOrder _ _ _ _ h
          · exact K.endOrder _ _ _ _ (K.give _ _ _ h)
        · exact K.endOrder _ _ _ _ (K.give _ _ _ h)
      · exact h

theorem replyExpires {s : State} (a : Nat) (h : P s) : P (s.replyExpires a) := by
  unfold State.replyExpires State.linkFault
  split
  · exact h
  · next d hd =>
    split
    · exact h
    · next o ho =>
      split
      · exact h
      · split
        · refine K.link s _ (fun hs => ?_) h
          refine Link.sound_modify a (fun d => { d with inFlight := some { o with sends := 2, timer := none } }) ?_ rfl rfl hs
          intro e he _
          have := Table.find_of_mem hs.1 he
          rw [hd] at this
          cases this
          rw [ho]
          rfl
        · exact K.endOrder _ _ _ _ (K.give _ _ _ h)

theorem probeExpires {s : State} (a : Nat) (h : P s) : P (s.probeExpires a) := by
  unfold State.probeExpires
  split
  · exact h
  · split
    · refine K.link s _ (Link.sound_modify a (fun d => { d with probe := none, probeDue := true }) ?_ rfl rfl) h
      intro d _ e
      exact e
    · exact h

/-! ## Attention -/

theorem setLatch {s : State} (h : P s) : P s.setLatch := by
  unfold State.setLatch
  split
  · exact h
  · exact K.deriveMany _ (K.perms s s.inputs true h)

theorem supervisionExpires {s : State} (h : P s) : P s.supervisionExpires := by
  have h1 := K.timers s s.att.period s.att.action (supervisionTimer s.att.period) (min 255 (s.att.expiries + 1)) h
  unfold State.supervisionExpires
  dsimp only
  apply K.give
  split
  · exact K.setLatch h1
  · exact h1

/-! ## The rules of the host commands -/

omit K in
/-- The record that an accepted WRITE_DEVICE leaves has no order in flight. -/
theorem writtenDevice_free {s : State} (f : Feeder) (k : DeviceKind) (x : DeviceFields) (hc : s.deviceCheck f x = none) :
    (s.writtenDevice f k x).inFlight = none := by
  have hw : ∀ (w : Bool) (d : Device), (d.wished w).inFlight = d.inFlight := by
    intro w d
    unfold Device.wished
    split <;> rfl
  unfold State.writtenDevice
  dsimp only
  rw [hw]
  split
  · next d hd =>
    simp only [State.deviceCheck, hd] at hc
    repeat' split at hc
    all_goals cases hc
    next hb _ _ =>
    simp only [Link.busy, Bool.or_eq_true, not_or] at hb
    simpa [Device.rewrite] using hb.1.1
  · rfl

theorem resetPart_rule {s : State} (a : Unit) (h : P s) : P (Machine.resetPart a s).1 := by
  exact K.port s _ h

theorem writeMarker_rule {s : State} (a : Nat) (h : P s) : P (Machine.writeMarker a s).1 := by
  exact K.port s _ h

theorem openStaging_rule {s : State} (a : TargetFields) (h : P s) : P (Machine.openStaging a s).1 := by
  unfold Machine.openStaging
  repeat' split
  all_goals first | exact h | exact K.putStaging _ (fun _ _ _ e => by cases e) h

theorem writeStaged_rule {s : State} (a : StagedFields) (h : P s) : P (Machine.writeStaged a s).1 := by
  unfold Machine.writeStaged
  repeat' split
  all_goals first | exact h | exact K.putStaging _ (fun _ _ _ e => by cases e) h

theorem discardStaging_rule {s : State} (a : Unit) (h : P s) : P (Machine.discardStaging a s).1 := by
  unfold Machine.discardStaging
  split
  all_goals first | exact h | exact K.putStaging _ (fun _ _ _ e => by cases e) h

theorem commitStaging_rule {s : State} (a : Unit) (h : P s) : P (Machine.commitStaging a s).1 := by
  unfold Machine.commitStaging
  split
  · exact h
  · exact h
  · split
    · exact h
    · next d _ _ hc =>
      refine K.putStaging _ ?_ h
      intro f n c e
      cases e
      exact Store.shotCount_of_commitCheck _ _ _ _ hc

theorem closeBreaker_rule {s : State} (a : Nat) (h : P s) : P (Machine.closeBreaker a s).1 := by
  refine onFeeder _ _ (fun f => ?_) h
  try dsimp only
  split
  · exact h
  · split
    · exact h
    · next hb =>
      split
      · exact h
      · dsimp only
        refine K.modSeq _ _ ⟨fun _ => .inr ?_, .inl (Nat.zero_le _)⟩ h
        exact Causes.tagNoClose_of_any _ Cause.blocksHostClose rfl (by simpa using hb)

theorem openBreaker_rule {s : State} (a : Nat) (h : P s) : P (Machine.openBreaker a s).1 := by
  refine onFeeder _ _ (fun f => ?_) h
  try dsimp only
  split
  · exact h
  · exact K.hostOpen f h

theorem clearBreakerFail_rule {s : State} (a : Nat) (h : P s) : P (Machine.clearBreakerFail a s).1 := by
  refine onFeeder _ _ (fun f => ?_) h
  try dsimp only
  split
  · exact K.clearFail f h
  · exact h

theorem setHostBlock_rule {s : State} (a : Nat × Nat) (h : P s) : P (Machine.setHostBlock a s).1 := by
  unfold Machine.setHostBlock
  split
  · dsimp only
    split
    · exact h
    · exact K.derive _ (K.putInputs _ _ h)
  · exact h

theorem placeTag_rule {s : State} (a : PlaceTagFields) (h : P s) : P (Machine.placeTag a s).1 := by
  unfold Machine.placeTag
  split
  · exact h
  · split
    · exact h
    · next hc => exact K.place s _ hc h

theorem amendTag_rule {s : State} (a : AmendTagFields) (h : P s) : P (Machine.amendTag a s).1 := by
  unfold Machine.amendTag
  repeat' split
  all_goals first | exact h | exact K.badAttempt _ _ h | skip
  refine K.derive _ (K.sameTags s _ (fun u => ?_) h)
  split <;> exact ⟨rfl, rfl, rfl⟩

theorem releaseTag_rule {s : State} (a : ReleaseFields) (h : P s) : P (Machine.releaseTag a s).1 := by
  unfold Machine.releaseTag
  repeat' split
  all_goals first | exact h | exact K.badAttempt _ _ h | exact K.retireTag _ h

theorem supervisorRelease_rule {s : State} (a : ReleaseFields) (h : P s) : P (Machine.supervisorRelease a s).1 := by
  unfold Machine.supervisorRelease
  repeat' split
  all_goals first | exact h | exact K.retireTag _ h

theorem tagsRestored_rule {s : State} (a : Unit) (h : P s) : P (Machine.tagsRestored a s).1 := by
  exact K.deriveMany _ (K.perms s _ s.latch h)

theorem setCalendar_rule {s : State} (a : Clock) (h : P s) : P (Machine.setCalendar a s).1 := by
  unfold Machine.setCalendar
  split
  · exact K.setClock _ h
  · exact h

theorem setTrim_rule {s : State} (a : Nat) (h : P s) : P (Machine.setTrim a s).1 := by
  unfold Machine.setTrim
  dsimp only
  split
  · exact K.cal s _ h
  · exact h

theorem writeWindow_rule {s : State} (a : WindowFields) (h : P s) : P (Machine.writeWindow a s).1 := by
  unfold Machine.writeWindow
  split
  · exact K.settleLevels (K.cal s _ h)
  · exact h

theorem clearWindow_rule {s : State} (a : Nat) (h : P s) : P (Machine.clearWindow a s).1 := by
  unfold Machine.clearWindow
  repeat' split
  all_goals first | exact h | exact K.settleLevels (K.cal s _ h)

theorem declareLevel_rule {s : State} (a : DeclareFields) (h : P s) : P (Machine.declareLevel a s).1 := by
  unfold Machine.declareLevel
  repeat' split
  all_goals first | exact h | exact K.settleLevels (K.cal s _ h)

theorem liftLevel_rule {s : State} (a : Nat) (h : P s) : P (Machine.liftLevel a s).1 := by
  unfold Machine.liftLevel
  split
  · exact K.settleLevels (K.cal s _ h)
  · exact h

theorem addEntry_rule {s : State} (a : EntryFields) (h : P s) : P (Machine.addEntry a s).1 := by
  unfold Machine.addEntry
  repeat' split
  all_goals first | exact h | exact K.cal s _ h

theorem deleteEntry_rule {s : State} (a : Nat) (h : P s) : P (Machine.deleteEntry a s).1 := by
  unfold Machine.deleteEntry Machine.onEntry
  repeat' split
  all_goals first | exact h | exact K.cal s _ h

theorem selectGroup_rule {s : State} (a : Nat × Nat) (h : P s) : P (Machine.selectGroup a s).1 := by
  unfold Machine.selectGroup
  split
  · exact K.derive _ (K.putInputs _ _ h)
  · exact h

theorem writeSection_rule {s : State} (a : SectionFields) (h : P s) : P (Machine.writeSection a s).1 := by
  unfold Machine.writeSection
  split
  · exact h
  · refine onFeeder _ _ (fun f => ?_) h
    try dsimp only
    split
    · exact h
    · exact K.sections s _ _ h

theorem deleteSection_rule {s : State} (a : Nat × Nat) (h : P s) : P (Machine.deleteSection a s).1 := by
  refine onFeeder _ _ (fun f => ?_) h
  try dsimp only
  repeat' split
  all_goals first | exact h | exact K.sections s _ _ h

theorem startHunt_rule {s : State} (a : Nat) (h : P s) : P (Machine.startHunt a s).1 := by
  refine onFeeder _ _ (fun f => ?_) h
  try dsimp only
  repeat' split
  all_goals first | exact h | exact K.startHuntOn _ _ _ _ h

theorem abandonHunt_rule {s : State} (a : Nat) (h : P s) : P (Machine.abandonHunt a s).1 := by
  refine onFeeder _ _ (fun f => ?_) h
  try dsimp only
  repeat' split
  all_goals first | exact h | exact K.endHunt _ _ _ h

theorem dismissHunt_rule {s : State} (a : Nat) (h : P s) : P (Machine.dismissHunt a s).1 := by
  refine onFeeder _ _ (fun f => ?_) h
  try dsimp only
  repeat' split
  all_goals first | exact h | exact K.hunt _ _ _ h

theorem writeDevice_rule {s : State} (a : DeviceFields) (h : P s) : P (Machine.writeDevice a s).1 := by
  unfold Machine.writeDevice
  split
  · exact h
  · split
    · exact h
    · next hc =>
      refine K.putDevices _ (fun hs => ⟨Table.sorted_put _ _ _ hs.1, ?_, hs.2.2⟩) h
      exact Nat.le_trans (inFlightCount_put_le _ _ _ (writtenDevice_free _ _ a hc)) hs.2.1

theorem deleteDevice_rule {s : State} (a : Nat) (h : P s) : P (Machine.deleteDevice a s).1 := by
  unfold Machine.deleteDevice Machine.onDevice
  split
  · split
    · dsimp only
      split
      · exact h
      · exact K.putDevices _ (fun hs =>
          ⟨Table.sorted_filter _ _ hs.1, Nat.le_trans (inFlightCount_filter_le _ _) hs.2.1, hs.2.2⟩) h
    · exact h
  · exact h

theorem orderSwitch_rule {s : State} (a : Nat × Nat) (h : P s) : P (Machine.orderSwitch a s).1 := by
  unfold Machine.orderSwitch Machine.onDevice
  split
  · exact h
  · next pos _ =>
    split
    · split
      · dsimp only
        split
        · exact h
        · exact K.link s _ (Link.sound_modify a.1 (fun d => { d with desired := pos, posHeld := false })
            (fun _ _ e => e) rfl rfl) h
      · exact h
    · exact h

theorem setLinkLimit_rule {s : State} (a : Nat) (h : P s) : P (Machine.setLinkLimit a s).1 := by
  unfold Machine.setLinkLimit
  repeat' split
  all_goals first | exact h | skip
  exact K.link s _ (fun hs => ⟨hs.1, by dsimp only; omega, by dsimp only; omega⟩) h

theorem judgeAll {s : State} (c : State → Feeder → Bool) (fs : List Feeder) (h : P s) :
    P (fs.foldl (fun s f => if c s f then s.judgeNeeded f else s) s) := by
  induction fs generalizing s with
  | nil => exact h
  | cons f fs ih =>
    refine ih ?_
    dsimp only
    split
    · exact K.judgeNeeded f h
    · exact h

theorem linkClear_rule {s : State} (a : Unit) (h : P s) : P (Machine.linkClear a s).1 :=
  K.judgeAll State.ownsDevice Ix4.all (K.link s _ (Link.sound_clear _) h)

theorem setAttentionLevel_rule {s : State} (a : Nat × Nat) (h : P s) : P (Machine.setAttentionLevel a s).1 := by
  unfold Machine.setAttentionLevel
  repeat' split
  all_goals first | exact h | exact K.judged s _ id h

theorem setMaskLevel_rule {s : State} (a : Nat) (h : P s) : P (Machine.setMaskLevel a s).1 := by
  unfold Machine.setMaskLevel
  split
  · exact h
  · exact K.judged s _ id h

theorem fetchAttention_rule {s : State} (a : Unit) (h : P s) : P (Machine.fetchAttention a s).1 := by
  unfold Machine.fetchAttention
  split
  · exact h
  · exact K.judged s _ Attention.ordered_filter h

theorem setSupervision_rule {s : State} (a : Nat × Nat) (h : P s) : P (Machine.setSupervision a s).1 := by
  unfold Machine.setSupervision
  repeat' split
  all_goals first | exact h | exact K.timers s _ _ _ _ h

/-- Every command keeps what its writes keep. -/
theorem exec {s t : State} (i : Instr) (h : P s) (e : Machine.exec i s = .next t) : P t := by
  cases i with
  | nop p =>
    simp only [Machine.exec, execNop] at e
    refine K.goodFrame _ ?_ h e
    intro u hu
    split
    · exact hu
    · exact K.answer _ _ hu
  | resetPart p => exact K.serve _ _ _ p (fun a u hu => K.resetPart_rule a hu) h e
  | readStartReason p => exact K.serve _ _ _ p (fun a u hu => (by rw [readStartReason_same]; exact hu)) h e
  | writeMarker p => exact K.serve _ _ _ p (fun a u hu => K.writeMarker_rule a hu) h e
  | readElements p => exact K.serve _ _ _ p (fun a u hu => (by rw [readElements_same]; exact hu)) h e
  | openStaging p => exact K.serve _ _ _ p (fun a u hu => busy _ a (K.openStaging_rule a hu) hu) h e
  | writeStaged p => exact K.serve _ _ _ p (fun a u hu => K.writeStaged_rule a hu) h e
  | readStaging p => exact K.serve _ _ _ p (fun a u hu => (by rw [readStaging_same]; exact hu)) h e
  | discardStaging p => exact K.serve _ _ _ p (fun a u hu => K.discardStaging_rule a hu) h e
  | commitStaging p => exact K.serve _ _ _ p (fun a u hu => busy _ a (K.commitStaging_rule a hu) hu) h e
  | readGroup p => exact K.serve _ _ _ p (fun a u hu => busy _ a ((by rw [readGroup_same]; exact hu)) hu) h e
  | readCurve p => exact K.serve _ _ _ p (fun a u hu => busy _ a ((by rw [readCurve_same]; exact hu)) hu) h e
  | readConstants p => exact K.serve _ _ _ p (fun a u hu => busy _ a ((by rw [readConstants_same]; exact hu)) hu) h e
  | readStoreStatus p => exact K.serve _ _ _ p (fun a u hu => (by rw [readStoreStatus_same]; exact hu)) h e
  | closeBreaker p => exact K.serve _ _ _ p (fun a u hu => K.closeBreaker_rule a hu) h e
  | openBreaker p => exact K.serve _ _ _ p (fun a u hu => K.openBreaker_rule a hu) h e
  | clearBreakerFail p => exact K.serve _ _ _ p (fun a u hu => K.clearBreakerFail_rule a hu) h e
  | setHostBlock p => exact K.serve _ _ _ p (fun a u hu => K.setHostBlock_rule a hu) h e
  | readFeeder p => exact K.serve _ _ _ p (fun a u hu => (by rw [readFeeder_same]; exact hu)) h e
  | placeTag p => exact K.serve _ _ _ p (fun a u hu => K.placeTag_rule a hu) h e
  | amendTag p => exact K.serve _ _ _ p (fun a u hu => K.amendTag_rule a hu) h e
  | releaseTag p => exact K.serve _ _ _ p (fun a u hu => K.releaseTag_rule a hu) h e
  | supervisorRelease p => exact K.serve _ _ _ p (fun a u hu => K.supervisorRelease_rule a hu) h e
  | readTag p => exact K.serve _ _ _ p (fun a u hu => (by rw [readTag_same]; exact hu)) h e
  | listTags p => exact K.serve _ _ _ p (fun a u hu => (by rw [listTags_same]; exact hu)) h e
  | tagsRestored p => exact K.serve _ _ _ p (fun a u hu => K.tagsRestored_rule a hu) h e
  | setCalendar p => exact K.serve _ _ _ p (fun a u hu => K.setCalendar_rule a hu) h e
  | readCalendar p => exact K.serve _ _ _ p (fun a u hu => (by rw [readCalendar_same]; exact hu)) h e
  | setTrim p => exact K.serve _ _ _ p (fun a u hu => K.setTrim_rule a hu) h e
  | writeWindow p => exact K.serve _ _ _ p (fun a u hu => K.writeWindow_rule a hu) h e
  | clearWindow p => exact K.serve _ _ _ p (fun a u hu => K.clearWindow_rule a hu) h e
  | readWindow p => exact K.serve _ _ _ p (fun a u hu => (by rw [readWindow_same]; exact hu)) h e
  | declareLevel p => exact K.serve _ _ _ p (fun a u hu => K.declareLevel_rule a hu) h e
  | liftLevel p => exact K.serve _ _ _ p (fun a u hu => K.liftLevel_rule a hu) h e
  | addEntry p => exact K.serve _ _ _ p (fun a u hu => K.addEntry_rule a hu) h e
  | deleteEntry p => exact K.serve _ _ _ p (fun a u hu => K.deleteEntry_rule a hu) h e
  | readEntry p => exact K.serve _ _ _ p (fun a u hu => (by rw [readEntry_same]; exact hu)) h e
  | listEntries p => exact K.serve _ _ _ p (fun a u hu => (by rw [listEntries_same]; exact hu)) h e
  | readLevels p => exact K.serve _ _ _ p (fun a u hu => (by rw [readLevels_same]; exact hu)) h e
  | selectGroup p => exact K.serve _ _ _ p (fun a u hu => K.selectGroup_rule a hu) h e
  | readCondition p => exact K.serve _ _ _ p (fun a u hu => (by rw [readCondition_same]; exact hu)) h e
  | writeSection p => exact K.serve _ _ _ p (fun a u hu => K.writeSection_rule a hu) h e
  | deleteSection p => exact K.serve _ _ _ p (fun a u hu => K.deleteSection_rule a hu) h e
  | readSection p => exact K.serve _ _ _ p (fun a u hu => (by rw [readSection_same]; exact hu)) h e
  | listSections p => exact K.serve _ _ _ p (fun a u hu => (by rw [listSections_same]; exact hu)) h e
  | locate p => exact K.serve _ _ _ p (fun a u hu => (by rw [locate_same]; exact hu)) h e
  | startHunt p => exact K.serve _ _ _ p (fun a u hu => K.startHunt_rule a hu) h e
  | abandonHunt p => exact K.serve _ _ _ p (fun a u hu => K.abandonHunt_rule a hu) h e
  | readHunt p => exact K.serve _ _ _ p (fun a u hu => (by rw [readHunt_same]; exact hu)) h e
  | dismissHunt p => exact K.serve _ _ _ p (fun a u hu => K.dismissHunt_rule a hu) h e
  | writeDevice p => exact K.serve _ _ _ p (fun a u hu => K.writeDevice_rule a hu) h e
  | deleteDevice p => exact K.serve _ _ _ p (fun a u hu => K.deleteDevice_rule a hu) h e
  | readDevice p => exact K.serve _ _ _ p (fun a u hu => (by rw [readDevice_same]; exact hu)) h e
  | listDevices p => exact K.serve _ _ _ p (fun a u hu => (by rw [listDevices_same]; exact hu)) h e
  | orderSwitch p => exact K.serve _ _ _ p (fun a u hu => K.orderSwitch_rule a hu) h e
  | setLinkLimit p => exact K.serve _ _ _ p (fun a u hu => K.setLinkLimit_rule a hu) h e
  | linkClear p => exact K.serve _ _ _ p (fun a u hu => K.linkClear_rule a hu) h e
  | readLink p c => exact K.serve _ _ _ p (fun a u hu => (by rw [readLink_same]; exact hu)) (K.senseCarrier c h) e
  | setAttentionLevel p => exact K.serve _ _ _ p (fun a u hu => K.setAttentionLevel_rule a hu) h e
  | setMaskLevel p => exact K.serve _ _ _ p (fun a u hu => K.setMaskLevel_rule a hu) h e
  | fetchAttention p => exact K.serve _ _ _ p (fun a u hu => K.fetchAttention_rule a hu) h e
  | readAttention p => exact K.serve _ _ _ p (fun a u hu => (by rw [readAttention_same]; exact hu)) h e
  | setSupervision p => exact K.serve _ _ _ p (fun a u hu => K.setSupervision_rule a hu) h e
  | frameError b =>
    cases e
    exact K.endTransaction _ (K.answer _ _) h
  | unknownCommand c => exact K.goodFrame _ (fun u hu => K.answer _ _ hu) h e
  | emptyTransaction =>
    cases e
    split
    · exact K.port _ _ h
    · exact h
  | coldReset p => cases e; exact K.cold _ _
  | warmReset x p =>
    cases x
    · cases e; exact K.warmReset _ _ h
    · cases e
      split
      · exact K.warmReset _ _ h
      · exact h
  | intervalReport b c =>
    simp only [Machine.exec, execIntervalReport] at e
    split at e
    · cases e; exact h
    · cases e
      split
      · exact K.takeReport _ h
      · exact h
  | watchExpiry f =>
    cases e
    split
    · exact K.watchExpires f h
    · exact h
  | decodedPositionChange f c =>
    have h1 := K.contacts s (s.contacts.set f c) h
    cases e
    split
    · exact h1
    · exact K.positionChange _ _ h1
  | tripFailExpiry f =>
    cases e
    split
    · exact K.tripFails f h
    · exact h
  | closeFailExpiry f =>
    cases e
    split
    · exact K.closeFails f h
    · exact h
  | deadTimerExpiry f =>
    simp only [Machine.exec, execDeadTimerExpiry] at e
    cases e
    split
    · exact K.deadEnds f h
    · exact h
  | reclaimTimerExpiry f =>
    simp only [Machine.exec, execReclaimTimerExpiry] at e
    cases e
    split
    · exact K.modSeqQuiet f _ (fun _ => ⟨id, Nat.zero_le _⟩) h
    · exact h
  | closeOntoFaultWindowExpiry f =>
    cases e
    split
    · exact K.modSeqQuiet f _ (fun _ => ⟨id, Nat.le_refl _⟩) h
    · exact h
  | holdTimerExpiry f => cases e; exact K.holdExpires f h
  | commitCompletion c =>
    simp only [Machine.exec, execCommitCompletion] at e
    split at e <;> cases e
    · next hd => exact K.completeCommit _ _ hd h
    · exact h
    · exact h
  | secondTick c => cases e; exact K.scrub _ (K.tickCalendar _ h)
  | minuteChange x =>
    cases e
    split
    · exact K.scrub _ (K.tickCalendar _ h)
    · exact h
  | supervisionExpiry =>
    cases e
    split
    · exact K.supervisionExpires h
    · exact h
  | replyFrame b c =>
    simp only [Machine.exec, execReplyFrame] at e
    split at e <;> cases e
    · exact K.takeReply _ (K.senseCarrier _ h)
    · exact K.senseCarrier _ h
  | frameSent => cases e; exact K.link s _ (Link.sound_frameSent _) h
  | replyTimerExpiry a => cases e; exact K.replyExpires a h
  | probeTimerExpiry a => cases e; exact K.probeExpires a h
  | arbiterChoice c => cases e; exact K.link _ _ (Link.sound_arbitrate _) (K.senseCarrier c h)
  | resend c => cases e; exact K.link _ _ (Link.sound_startResend _) (K.senseCarrier c h)
  | clearFrame c => cases e; exact K.link _ _ (Link.sound_startClear _) (K.senseCarrier c h)

end KeptAll

end Sys2Proof.Machine
end

