-- ==== Sys2Proof/Laws/Map.lean ====
section
/-! SUPPORT. What the ascending lists of numbers and the spreads over a section map hold (07 R128, 08 R145, R146, R148). -/

namespace Sys2Proof.Machine

@[simp] theorem mem_insertNum (n k : Nat) (ns : List Nat) : k ∈ insertNum n ns ↔ k = n ∨ k ∈ ns := by
  induction ns with
  | nil => simp [insertNum]
  | cons m rest ih =>
    simp only [insertNum]
    split
    · simp
    · split
      · next h => subst h; simp
      · simp only [List.mem_cons, ih]; exact or_left_comm

@[simp] theorem mem_sortNums (k : Nat) (ns : List Nat) : k ∈ sortNums ns ↔ k ∈ ns := by
  induction ns with
  | nil => simp [sortNums]
  | cons n rest ih =>
    change k ∈ insertNum n (sortNums rest) ↔ _
    rw [mem_insertNum, ih, List.mem_cons]

theorem Table.mem_pick {α : Type} (t : Table α) (test : Nat → α → Bool) (k : Nat) :
    k ∈ t.pick test ↔ ∃ a, (k, a) ∈ t ∧ test k a = true := by
  simp only [Table.pick, List.mem_map, List.mem_filter]
  constructor
  · rintro ⟨⟨j, a⟩, h, rfl⟩
    exact ⟨a, h⟩
  · rintro ⟨a, h⟩
    exact ⟨(k, a), h, rfl⟩

/-- One step down adds the children, of the sections held, that are let pass. -/
theorem mem_grow (t : Table Section) (through : Section → Bool) (ns : List Nat) (k : Nat) :
    k ∈ grow t through ns ↔ k ∈ ns ∨ ∃ x, (k, x) ∈ t ∧ x.parent ∈ ns ∧ through x = true := by
  simp [grow, Table.mem_pick]

theorem mem_spread_of_mem (t : Table Section) (through : Section → Bool) (fuel : Nat) (ns : List Nat) {k : Nat} (h : k ∈ ns) :
    k ∈ spread t through fuel ns := by
  induction fuel generalizing ns with
  | zero => exact h
  | succ n ih => exact ih _ ((mem_grow ..).mpr (.inl h))

/-- A spread goes no further than any set that holds its start and goes down through the sections let pass. -/
theorem spread_least (t : Table Section) (through : Section → Bool) (fuel : Nat) (ns : List Nat) (keep : Nat → Prop)
    (h0 : ∀ m ∈ ns, keep m) (h1 : ∀ p ∈ t, keep p.2.parent → through p.2 = true → keep p.1) :
    ∀ m ∈ spread t through fuel ns, keep m := by
  induction fuel generalizing ns with
  | zero => exact h0
  | succ n ih =>
    refine ih _ fun m hm => ?_
    rcases (mem_grow ..).mp hm with h | ⟨x, hx, hp, ht⟩
    · exact h0 m h
    · exact h1 (m, x) hx (h0 _ hp) ht

/-- A list of numbers goes down through every section let pass. -/
def goesDown (t : Table Section) (through : Section → Bool) (ns : List Nat) : Prop :=
  ∀ p ∈ t, p.2.parent ∈ ns → through p.2 = true → p.1 ∈ ns

theorem spread_of_goesDown (t : Table Section) (through : Section → Bool) (fuel : Nat) (ns : List Nat)
    (h : goesDown t through ns) : goesDown t through (spread t through fuel ns) := by
  induction fuel generalizing ns with
  | zero => exact h
  | succ n ih =>
    have e : ∀ k, k ∈ grow t through ns ↔ k ∈ ns := fun k => by
      rw [mem_grow]
      exact ⟨fun hk => hk.elim id fun ⟨x, hx, hp, ht⟩ => h (k, x) hx hp ht, .inl⟩
    exact ih _ fun p hp hq ht => (e _).mpr (h p hp ((e _).mp hq) ht)

/-- A spread with a step for every entry of the map that its start lacks goes all the way down. -/
theorem spread_goesDown (t : Table Section) (through : Section → Bool) (fuel : Nat) (ns : List Nat)
    (h : (t.filter (fun p => !ns.contains p.1)).length ≤ fuel) : goesDown t through (spread t through fuel ns) := by
  induction fuel generalizing ns with
  | zero =>
    intro p hp _ _
    refine Decidable.byContradiction fun hc => ?_
    have : p ∈ t.filter (fun p => !ns.contains p.1) := by
      rw [List.mem_filter]; exact ⟨hp, by simpa [spread] using hc⟩
    rw [List.length_eq_zero_iff.mp (Nat.le_zero.mp h)] at this
    exact absurd this List.not_mem_nil
  | succ n ih =>
    rcases Classical.em (goesDown t through ns) with hd | hd
    · exact spread_of_goesDown t through (n + 1) ns hd
    · simp only [goesDown, Classical.not_forall] at hd
      obtain ⟨p, hp, hq, ht, hn⟩ := hd
      refine ih _ (Nat.le_of_lt_succ (Nat.lt_of_lt_of_le ?_ h))
      have hsub : ∀ q : Nat × Section, (!(grow t through ns).contains q.1) = true → (!ns.contains q.1) = true := by
        intro q hq'
        simp only [Bool.not_eq_true', ← Bool.not_eq_true, List.contains_iff_mem] at hq' ⊢
        exact fun hm => hq' ((mem_grow ..).mpr (.inl hm))
      have e : t.filter (fun q => !(grow t through ns).contains q.1)
          = (t.filter (fun q => !ns.contains q.1)).filter (fun q => !(grow t through ns).contains q.1) := by
        rw [List.filter_filter]
        refine List.filter_congr fun q _ => ?_
        cases hg : !(grow t through ns).contains q.1 with
        | false => simp
        | true => simpa using hsub q hg
      rw [e]
      refine List.length_filter_lt_length_iff_exists.mpr ⟨p, List.mem_filter.mpr ⟨hp, by simpa using hn⟩, ?_⟩
      have : p.1 ∈ grow t through ns := (mem_grow ..).mpr (.inr ⟨p.2, hp, hq, ht⟩)
      simpa using this

end Sys2Proof.Machine
end

