-- ==== Sys2Proof/Tests/Slice0.lean ====
section
/-! SUPPORT. The model's own tests: the ill-formed commands that WellFormed refuses, the worked examples of spec/, and for each
statement that has hypotheses a concrete state and operands that meet them. -/

namespace Sys2Proof.Tests

open Sys2Proof Sys2Proof.Machine

/-! ## States to test on -/

/-- A sequencer record in CLOSED with every timer stopped. -/
def quiet : Seq := ⟨.closed, 0, none, none, none, none, none, none, false, false, .closed, false⟩

/-- The state after reset with feeder 1's sequencer record replaced. -/
def onSeq (r : Seq) : State := { State.reset with seq := State.reset.seq.set .n1 r }

/-- The same with no cause in any block cause set. -/
def noCause (r : Seq) : State :=
  { onSeq r with cond := Four.fill { coldCondition with causes := ⟨false, false, false, false, false, false, false, false⟩ } }

/-- The state after reset with a RESET_PART pending. -/
def resetWaits : State := { State.reset with port := { coldPort false with phase := .resetPending } }

/-- The state after reset with a staging. -/
def staged (x : Staging) : State := { State.reset with store := { coldStore with staging := x } }

/-- A tag of feeder 1 held by local panel holder 7, with one bad attempt. -/
def aTag : Tag := ⟨5, .n1, .huntExclude, [2, 3], ⟨.localPanel, 7⟩, none, some ⟨2030, 6, 1, 12, 0⟩, false, 1⟩

/-- A time: the last second of 2099. -/
def lastSecond : Clock := ⟨⟨2099, 12, 31, 23, 59⟩, 59, 4⟩

/-- The state after reset with the calendar SET. -/
def setTo (k : Clock) : State := { State.reset with cal := { coldCalendar with clock := some k } }

/-- A time in 2030 with the calendar SET to it. -/
def aTime : Clock := ⟨⟨2030, 6, 1, 10, 30⟩, 5, 6⟩

/-- The ten sections of the worked location (07 section 7.3). -/
def map10 : Table Section :=
  [(1, ⟨0, 3000, 0, none, true⟩), (2, ⟨3000, 8000, 1, some 21, true⟩), (3, ⟨8000, 12000, 2, some 16, true⟩),
   (4, ⟨12000, 26000, 3, some 17, true⟩), (5, ⟨5200, 9800, 2, some 18, true⟩), (6, ⟨26000, 41000, 4, some 19, true⟩),
   (7, ⟨9000, 14500, 3, some 20, true⟩), (8, ⟨14500, 16200, 7, none, true⟩), (9, ⟨11200, 13000, 7, some 22, true⟩),
   (10, ⟨9500, 10500, 3, some 23, false⟩)]

/-- The state after reset with a hunt record and a sequencer record for feeder 1 and the map above. -/
def hunting (r : Seq) (h : Hunt) : State :=
  { noCause r with hunts := (Four.fill none).set .n1 (some h), sections := (Four.fill []).set .n1 map10 }

/-- A hunt record. -/
def aHunt (phase : HuntPhase) : Hunt where
  phase := phase
  hostStart := true
  candidates := [⟨1, .pending⟩, ⟨2, .pending⟩]
  current := some 0
  budget := 3
  used := 1
  location := ⟨none, none⟩
  hold := none
  isolating := none
  detail := none
  named := []

/-- A device record of feeder 1, owned by the host, with no order in flight. -/
def aDevice : Device :=
  ⟨.n1, .switch, none, some .opened, .host, none, none, none, false, false, none, none, .reachable, none, false⟩

/-- The state after reset with a device table. -/
def linked (t : Table Device) : State := { State.reset with link := { coldLink false with devices := t, clearWaits := false } }

/-- The state after reset with devices 1, 2 and 30 of feeder 1: 2 through relay 1, and 30 with an order in flight. -/
def devices3 : State :=
  linked [(1, aDevice), (2, { aDevice with relay := some 1, desired := none, probe := some 0, reach := .unreachable }),
    (30, { aDevice with inFlight := some ⟨.openSwitch, 15, 1, some 0⟩, desired := none })]

/-- The constants of the worked location. -/
def constants2 : Constants := ⟨410, 500, 10, 100, 200, 1000, 500, .a, ⟨.n1, .n1, .n1, .n1, .n1, .n1⟩⟩

/-- The curve table of the worked inverse-time fault (01 section 1.4), as far as its multiples reach. -/
def curve5 : Curve := ⟨[⟨64, 20000⟩, ⟨96, 8000⟩, ⟨128, 5200⟩, ⟨192, 2468⟩, ⟨256, 1900⟩]⟩

theorem notCommitting {d : Draft} : State.reset.store.staging ≠ .committing d := by
  intro h; rw [show State.reset.store.staging = .closed from rfl] at h; cases h

theorem notOpened {d : Draft} : State.reset.store.staging ≠ .opened d := by
  intro h; rw [show State.reset.store.staging = .closed from rfl] at h; cases h

/-! ## Ill-formed commands -/

/-- 11 R199: a frame carries at most 60 bytes of payload. -/
theorem test_payload_length_refused :
    (Instr.placeTag (List.replicate 61 0#8)).wellFormed = false ∧ (Instr.placeTag (List.replicate 60 0#8)).wellFormed = true := by
  decide

/-- 11 R200: the codes 0 to 62 are known. -/
theorem test_known_code_refused : (Instr.unknownCommand 62#8).wellFormed = false ∧ (Instr.unknownCommand 63#8).wellFormed = true := by
  decide

/-- 05 R91: each taker takes the minute change once. -/
theorem test_minute_order_refused :
    (Instr.minuteChange ⟨[.tags, .schedule, .windows], none⟩).wellFormed = false
    ∧ (Instr.minuteChange ⟨[.tags, .tags, .schedule, .windows], none⟩).wellFormed = false
    ∧ (Instr.minuteChange ⟨[.windows, .tags, .schedule, .declarations], none⟩).wellFormed = true := by
  decide

/-- 09 R164: an address is 1 to 30. -/
theorem test_reply_timer_address_refused :
    (Instr.replyTimerExpiry 0).wellFormed = false ∧ (Instr.replyTimerExpiry 31).wellFormed = false
    ∧ (Instr.replyTimerExpiry 30).wellFormed = true := by
  decide

theorem test_probe_timer_address_refused :
    (Instr.probeTimerExpiry 0).wellFormed = false ∧ (Instr.probeTimerExpiry 31).wellFormed = false
    ∧ (Instr.probeTimerExpiry 1).wellFormed = true := by
  decide

/-! ## Values worked out in spec/ -/

/-- The check value of the CRC-16 over the digits 1 to 9, for the generator and start of 11 R199 (PRESUMED: a published value). -/
theorem test_crc_of_digits :
    crc16 [0x31#8, 0x32#8, 0x33#8, 0x34#8, 0x35#8, 0x36#8, 0x37#8, 0x38#8, 0x39#8] = 0x29B1#16 := by
  decide +kernel

/-- 01 section 1.4: 912 A against a pickup of 300 A is 194 sixty-fourths, 2468 ms and, at a multiplier of 50, an increment of 8103. -/
theorem test_worked_inverse_time :
    multiple 912 300 = 194 ∧ curve5.time 194 = 2468 ∧ increment 2468 50 = 8103 := by
  decide

/-- 01 section 1.4: the sum passes 1,000,000 at report 124, and 30 more reports from 750,000 fall short where 31 reach. -/
theorem test_worked_sums : 8103 * 123 = 996669 ∧ (riseSum ⟨true, 996669, false, none⟩ 8103) = (⟨true, 1000000, true, none⟩, true)
    ∧ (riseSum ⟨true, 750000 + 8103 * 29, false, none⟩ 8103).2 = false
    ∧ (riseSum ⟨true, 750000 + 8103 * 30, false, none⟩ 8103).2 = true := by
  decide

/-- 07 section 7.3: 4300 milliohm at 410 per kilometre lies at 10,487 m, and the window runs from 9439 to 11,535. -/
theorem test_worked_location :
    distanceOf 4300 410 = 10487
    ∧ makeLocation (some constants2) (some 10487) = ⟨some 10487, some ⟨1048, 9439, 11535⟩⟩ := by
  decide

/-- 07 section 7.3: the candidates of that window are 5, 3, 7 and 9; without a distance every enabled section is one. -/
theorem test_worked_candidates :
    candidatesOf map10 (makeLocation (some constants2) (some 10487)) = [5, 3, 7, 9]
    ∧ candidatesOf map10 ⟨none, none⟩ = [1, 2, 5, 3, 7, 4, 9, 8, 6] := by
  decide

/-- 08 section 8.9: the devices that the first step needs, with sections 5 and 9 excluded. -/
theorem test_worked_first_step :
    testSpan map10 3 = [3] ∧ sortNums (namedOpen map10 (.sections [5, 9]) 3) = [17, 18, 20, 22, 23]
    ∧ sortNums (namedClosed map10 3) = [16, 21] := by
  decide

/-- 08 section 8.9: the second step's span and the devices it needs. -/
theorem test_worked_second_step :
    testSpan map10 7 = [7, 8] ∧ sortNums (namedOpen map10 (.sections [5, 9]) 7) = [18, 22]
    ∧ sortNums (namedClosed map10 7) = [16, 20, 21] := by
  decide

/-- 08 section 8.9: with switches 17, 18, 22 and 23 open the second test energises sections 1, 2, 3, 7 and 8. -/
theorem test_worked_second_energised :
    energised map10 ([16, 17, 18, 19, 20, 21, 22, 23].map (fun a =>
      (a, { aDevice with ack := if a ∈ [17, 18, 22, 23] then some .opened else some .closed }))) 7 = [1, 2, 3, 7, 8] := by
  decide

/-- 07 section 7.2: making section 7 the parent of section 3 would close a cycle, since 3 is among the ancestors of 7. -/
theorem test_worked_tree :
    ancestors map10 7 = [3, 2, 1] ∧ childrenOf map10 7 = [8, 9] ∧ depthOf map10 7 = 4 := by
  decide

/-! ## Witnesses: states and operands that meet the hypotheses of the statements -/

theorem test_witness_StepRunsTheFrontCommand :
    ∃ s : State, s.pending = [.nop [], .frameSent] ∧ ∃ t, step s = .next t ∧ t.pending = [.frameSent] :=
  ⟨{ State.reset with pending := [.nop [], .frameSent] }, rfl, _, rfl, rfl⟩

theorem test_witness_IdleStepIsOneMillisecond : State.reset.pending = [] := rfl

theorem test_witness_CommandFramesReadBack :
    (Instr.readLink [] true).wellFormed = true ∧ (Instr.readLink [] true).transaction = some (withCrc [57#8, 0#8])
    ∧ (∀ p c, Instr.readLink [] true = .readLink p c → true = c)
    ∧ (Instr.closeBreaker [1#8]).transaction = some (withCrc [14#8, 1#8, 1#8])
    ∧ 60 < (61#8).toNat ∧ [1#8, 0#8].length < (1#8).toNat + 2
    ∧ (60#8).toNat ≤ 60 ∧ (List.replicate 60 0#8).length = (60#8).toNat
    ∧ [0#8, 0#8] ≠ wordBytes (crc16 [14#8, 1#8, 1#8])
    ∧ (∃ a b, [a, b] = wordBytes (crc16 [63#8, 0#8])) ∧ 63 ≤ (63#8).toNat :=
  ⟨rfl, rfl, fun _ _ h => by cases h; rfl, rfl, by decide, by decide, by decide, by decide, by decide +kernel, ⟨_, _, rfl⟩,
    by decide⟩

/-- A step that gives a notice, asserts the line and keeps every soundness of State.reset: for LinesFollowNoticesAndFailures,
ConditionsStayDerived, TablesStaySound, SumsStayWithinBounds, HuntsRunWhileInHunt and ShotsNeverExceedFour. -/
theorem test_witness_invariants :
    ∃ s t : State, step s = .next t ∧ s.lineSound = true ∧ s.backupSound = true ∧ s.condSound = true ∧ s.tagsSound = true
      ∧ s.ordersSound = true ∧ s.noticesSound = true ∧ s.sumsSound = true ∧ s.huntsSound = true ∧ s.shotsSound = true
      ∧ t.att.line = true :=
  ⟨{ State.reset with pending := [.decodedPositionChange .n2 ⟨true, true⟩] }, _, rfl, by decide, by decide, by decide, by decide,
    by decide, by decide, by decide, by decide, by decide, by decide⟩

theorem test_witness_NoCloseUnderANoCloseTag :
    ∃ s t : State, s.condSound = true ∧ exec (.closeBreaker [1#8]) s = .next t ∧ (s.seq.get .n1).closeDrive = false
      ∧ t.tagged .n1 .noClose = true :=
  ⟨State.derive { State.reset with tags := [{ aTag with kind := .noClose, scope := [], expiry := none }] } .n1, _,
    by decide, rfl, by decide, by decide⟩

theorem test_witness_LatchLeavesOnlyByReset :
    (∃ t, exec (.coldReset powerOnPins) { State.reset with latch := true } = .next t ∧ t.latch = false)
    ∧ (∃ t, exec (.warmReset .pin powerOnPins) { State.reset with latch := true } = .next t ∧ t.latch = false)
    ∧ ∃ t, exec (.nop []) { resetWaits with latch := true } = .next t ∧ t.latch = false :=
  ⟨⟨_, rfl, rfl⟩, ⟨_, rfl, by decide⟩, ⟨_, rfl, by decide⟩⟩

theorem test_witness_PendingResetTakesTheNextTransaction :
    resetWaits.port.phase = .resetPending ∧ (Instr.closeBreaker [1#8]).frame.isSome = true
    ∧ (∀ p c, Instr.closeBreaker [1#8] ≠ .readLink p c) ∧ State.reset.port.phase = .ready
    ∧ (State.cold ⟨Four.fill ⟨false, true⟩, false, true, 0⟩ []).port.phase = .cut :=
  ⟨rfl, rfl, nofun, rfl, rfl⟩

/-- Two seconds pass at the end of 2099 while the reset is applied, and none while the calendar is UNSET. -/
theorem test_witness_WarmResetByPinLeaves :
    ((Calendar.keepTime 2 (setTo lastSecond).cal).1.clock = some ⟨⟨2000, 1, 1, 0, 0⟩, 1, 5⟩
      ∧ (Calendar.keepTime 2 (setTo lastSecond).cal).2 = some ⟨true, true⟩)
    ∧ ((Calendar.keepTime 5 State.reset.cal).1.clock = none ∧ (Calendar.keepTime 5 State.reset.cal).2 = none) := by
  decide

/-- 11 section 11.4: a transaction that a reset cut short is not executed, and the one after it is. -/
theorem test_cut_transaction_not_executed :
    ∃ s t u, exec (.coldReset ⟨Four.fill ⟨false, true⟩, false, true, 0⟩) State.reset = .next s
      ∧ exec (.writeMarker [7#8]) s = .next t ∧ t.port.marker = 0#8 ∧ exec (.writeMarker [7#8]) t = .next u
      ∧ u.port.marker = 7#8 :=
  ⟨_, _, _, rfl, rfl, rfl, rfl, rfl⟩

theorem test_witness_PortCommandsAnswer :
    State.reset.port.phase = .ready
    ∧ (∃ t, exec (.readStartReason []) State.reset = .next t) ∧ (∀ p, Instr.readStartReason [] ≠ .writeMarker p)
    ∧ (∀ pins, Instr.readStartReason [] ≠ .coldReset pins) ∧ ∃ t, exec (.coldReset powerOnPins) State.reset = .next t :=
  ⟨rfl, ⟨_, rfl⟩, nofun, nofun, ⟨_, rfl⟩⟩

theorem test_witness_NopLeavesTheBuffer : State.reset.port.phase = .ready ∧ resetWaits.port.phase = .resetPending :=
  ⟨rfl, rfl⟩

theorem test_witness_RefusalChangesNothingElse :
    (∃ t, exec (.closeBreaker [1#8]) (onSeq quiet) = .next t ∧ t.port.buffer.status = .wrongState)
    ∧ (Instr.closeBreaker [1#8]).frame = some (14, [1#8]) ∧ (onSeq quiet).port.phase = .ready
    ∧ Instr.closeBreaker [1#8] ≠ .nop [] ∧ ∃ t, exec (.releaseTag (be2 9 ++ [1#8] ++ be2 7)) State.reset = .next t
      ∧ t.port.buffer.status = .notFound :=
  ⟨⟨_, rfl, by decide⟩, rfl, rfl, nofun, _, rfl, by decide⟩

theorem test_witness_MisshapenCommandsAreBadField :
    (Instr.releaseTag [0#8, 1#8, 1#8, 0#8]).frame = some (21, [0#8, 1#8, 1#8, 0#8]) ∧ [0#8, 1#8, 1#8, 0#8].length ≠ 5
    ∧ State.reset.port.phase = .ready ∧ ((0#8).toNat = 0 ∨ 4 < (0#8).toNat) ∧ ((5#8).toNat = 0 ∨ 4 < (5#8).toNat)
    ∧ (∀ d, State.reset.store.staging ≠ .committing d)
    ∧ ∀ d, Instr.openStaging [2#8, 5#8] = .openStaging [2#8, 5#8] → State.reset.store.staging ≠ .opened d :=
  ⟨rfl, by decide, rfl, by decide, by decide, fun _ h => absurd h notCommitting, fun _ _ h => absurd h notOpened⟩

theorem test_witness_BusyWhileACommitIsInFlight :
    (staged (.committing (.group .n1 .n4 safeGroup))).port.phase = .ready
    ∧ (staged (.committing (.group .n1 .n4 safeGroup))).store.staging = .committing (.group .n1 .n4 safeGroup) :=
  ⟨rfl, rfl⟩

/-- For ProtectionReadsAnswer, TagAndCalendarReadsAnswer and ConditionMapAndLinkReadsAnswer: the ends of the ranges stand in their
hypotheses, and the state is reset's. -/
theorem test_witness_reads :
    State.reset.port.phase = .ready ∧ (∀ d, State.reset.store.staging ≠ .committing d)
    ∧ (65000 ≤ 65000 ∧ 65000 < 65001 ∧ 65535 ≤ 65535)
    ∧ (4 < (5#8).toNat ∧ 3 < (4#8).toNat ∧ 48 < (49#8).toNat ∧ 12 < (13#8).toNat ∧ 16 < (17#8).toNat ∧ 8 < (9#8).toNat) :=
  ⟨rfl, fun _ h => absurd h notCommitting, by decide, by decide⟩

theorem test_witness_MultipleOfPickup : 1 ≤ 5 ∧ multiple 200 5 = 2560 ∧ multiple 199 5 = 2547 ∧ multiple 400 10 = 2560 := by
  decide

theorem test_witness_CurveEntryIsTheLargestAtMost :
    2 ≤ curve5.breakpoints.length ∧ curve5.breakpoints.length ≤ 16 ∧ curve5.breakpoints.Pairwise (fun a b => a.q < b.q)
    ∧ (curve5.breakpoints.head?.map (·.q)) = some 64 ∧ curve5.time 61 = 20000 ∧ curve5.time 64 = 20000
    ∧ curve5.time 95 = 20000 ∧ curve5.time 96 = 8000 ∧ curve5.time 2560 = 1900 := by
  decide

theorem test_witness_IncrementOfTheSum : increment 600000 150 = 11 ∧ increment 10 5 = 1000000 := by
  decide

/-- A setting of P1 with a reset time of 4000 ms (01 section 1.4), of feeder 1 at shot 0. -/
def p1Setting : Setting := ⟨.p1, ⟨true, 300, 0x1F#5, false, .n1, 50, 4000, 0, 0⟩, 0, some curve5, 0, false⟩

/-- A report with the largest phase current given. -/
def aReport (phase : Nat) : Report := ⟨.n1, 7, phase, 10, 10, 0, 0, none, false, .good⟩

/-- A dropped report of P1 with a full sum falls by 2500; with no reset time it falls to 0. -/
theorem test_witness_DecayOfTheSum :
    heldDropped p1Setting.settings p1Setting.shot = false
    ∧ picksUp .p1 p1Setting.settings (aReport 285) true = false
    ∧ picksUp .p1 { p1Setting.settings with resetTime := 0 } (aReport 285) true = false
    ∧ (evaluate p1Setting (aReport 285) ⟨true, 1000000, true, none⟩).1 = ⟨false, 997500, false, none⟩
    ∧ decay 1000000 10 = 0 ∧ decay 1000000 11 = 90910 := by
  decide

theorem test_witness_ElementEvaluation :
    multiple 300 300 = 64 ∧ multiple 286 300 = 61
    ∧ (evaluate p1Setting (aReport 912) ⟨true, 996669, false, none⟩) = (⟨true, 1000000, true, none⟩, true)
    ∧ heldDropped { p1Setting.settings with enabled := false } 0 = true
    ∧ heldDropped { p1Setting.settings with shots := 0x1E#5 } 0 = true
    ∧ p1Setting.settings.shots.getLsbD 0 = true ∧ p1Setting.element.inverse = true ∧ p1Setting.curve = some curve5
    ∧ (evaluate { p1Setting with element := .p2, delay := 300 } (aReport 300) ⟨false, 0, false, none⟩)
      = (⟨true, 1, false, none⟩, false)
    ∧ (evaluate { p1Setting with element := .p2, delay := 300 } (aReport 286) ⟨true, 29, false, none⟩)
      = (⟨true, 30, true, none⟩, true)
    ∧ (evaluate { p1Setting with curve := none } (aReport 912) ⟨true, 7, false, none⟩) = (⟨false, 0, false, none⟩, false)
    ∧ (evaluate { p1Setting with takesXE := true } { aReport 912 with xe := some 4300 } ⟨false, 0, false, none⟩).1.takenXE
      = some 4300 := by
  decide

/-- A frame cut by one byte, a frame with a wrong CRC-16, feeders 0 and 5, and a sequence that repeats the last. -/
theorem test_witness_UnusableReportsChangeNothing :
    (List.replicate 16 0#8).length ≠ 17
    ∧ (List.replicate 17 0#8).drop 15 ≠ wordBytes (crc16 ((List.replicate 17 0#8).take 15))
    ∧ (withCrc (Sys2Proof.reportContent 0 1 0 0 0 0 0 0 0)).length = 17
    ∧ ({ State.reset with sample := Four.fill { coldSample with lastSequence := some 255 } }.sample.get .n4).lastSequence
      = some 255 := by
  decide +kernel

/-- The state after reset with P2 and E2 of feeder 1 picked up for 29 reports, in the safe group. -/
def nearTrip : State :=
  { State.reset with engine := State.reset.engine.set .n1 ⟨{ Five.fill clearedElement with
      p2 := ⟨true, 29, false, none⟩, e2 := ⟨true, 29, false, none⟩ }, none⟩ }

/-- The report on which both operate (01 sections 1.5 and 1.6): 912 A and a residual of 500, in frame 7. -/
theorem test_witness_UsableReportIsEvaluated :
    (nearTrip.sample.get .n1).lastSequence ≠ some 7 ∧ (nearTrip.sample.get .n1).runCount ≠ 49
    ∧ [Element.p2, .p1, .e2, .e1, .s1].filter (fun e =>
        (evaluate (nearTrip.settingOf (clampReport .n1 7 912 10 10 500 0 0 .good) e)
          (clampReport .n1 7 912 10 10 500 0 0 .good) ((nearTrip.engine.get .n1).elements.get e)).2) = [.p2, .e2]
    ∧ [Element.p2, .p1, .e2, .e1, .s1].filter (fun e =>
        (evaluate (State.reset.settingOf (clampReport .n1 7 912 10 10 500 0 0 .good) e)
          (clampReport .n1 7 912 10 10 500 0 0 .good) ((State.reset.engine.get .n1).elements.get e)).2) = [] := by
  decide

/-- A state for each row of the trip request: CLOSED with the window running, CLOSING, DEAD_TIME in travel, TRIPPING, and HUNT in each
service. -/
theorem test_witness_TripRequests :
    let at_ := fun (x : SeqState) (p : Position) => (onSeq { quiet with state := x, position := p, window := some 3 }).seq.get .n1
    ((at_ .closed .closed).state = .closed ∧ (at_ .closed .closed).window.isSome = true)
    ∧ (at_ (.closing .host) .opened).state = .closing .host ∧ (at_ (.closing .reclose) .travel).state = .closing .reclose
    ∧ ((at_ .deadTime .travel).state = .deadTime ∧ (at_ .deadTime .travel).position ≠ .opened)
    ∧ (at_ (.tripping .hostOpen false) .closed).state = .tripping .hostOpen false
    ∧ (∀ x ∈ [HuntService.idle, .opening, .testClosing, .testClosed, .restoreClosing],
      (at_ (.hunt x) .opened).state = .hunt x ∧ (at_ (.hunt x) .closed).state = .hunt x)
    ∧ (hunting quiet (aHunt .testingHold)).hunts.get .n1 = some (aHunt .testingHold) := by
  decide

theorem test_witness_MeasurementsLostAndRegained :
    ({ State.reset with sample := Four.fill ⟨.valid, some 0, 0, none, 3⟩ }.sample.get .n1).watch = some 0
    ∧ ({ State.reset with sample := Four.fill ⟨.held, some 0, 3, none, 0⟩ }.sample.get .n1).expiries < 4
    ∧ 4 ≤ ({ State.reset with sample := Four.fill ⟨.held, some 0, 4, none, 0⟩ }.sample.get .n1).expiries
    ∧ (State.reset.sample.get .n1).watch = none
    ∧ readReport (withCrc (Sys2Proof.reportContent 1 7 912 10 10 0 0 65001 0)) false
      = some (clampReport .n1 7 912 10 10 0 0 65001 .good) := by
  decide +kernel

/-- The 50th usable report in a row of a feeder that has lost its measurements. -/
theorem test_witness_MeasurementsRegained :
    ∃ s : State, (s.sample.get .n1).lastSequence ≠ some 7 ∧ (s.sample.get .n1).runCount = 49
      ∧ (s.causes .n1).measLost = true ∧ s.condSound = true :=
  ⟨State.derive { State.reset with
      sample := Four.fill ⟨.valid, some 9, 0, some 6, 49⟩
      inputs := State.reset.inputs.set .n1 { coldInputs with measLost := true } } .n1,
    by decide, by decide, by decide, by decide⟩

theorem test_witness_StagingCommandsAnswer :
    State.reset.port.phase = .ready ∧ State.reset.store.staging = .closed
    ∧ (staged (.opened (.group .n1 .n1 safeGroup))).store.staging = .opened (.group .n1 .n1 safeGroup)
    ∧ (safeGroup.shotCount, (Draft.group .n1 .n1 safeGroup).write ⟨200, 0, 0⟩) = (0, none)
    ∧ (coldStore.commitCheck (.curve .n1 unsetCurveDraft)).isSome = true
    ∧ coldStore.commitCheck (.group .n1 .n1 safeGroup) = none := by
  decide

/-- An unset count, a second multiple that does not rise, a time that rises, and curve5 as it stands. -/
theorem test_witness_CommitChecks :
    let d := curve5.draft
    (unsetCurveDraft.count = none ∧ coldStore.commitCheck (.curve .n1 unsetCurveDraft) = some (0, 0))
    ∧ (d.count = some 5 ∧ d.qs[4]? = some (some 256) ∧ d.ts[4]? = some (some 1900) ∧ coldStore.commitCheck (.curve .n1 d) = none)
    ∧ coldStore.commitCheck (.curve .n1 { d with qs := d.qs.set 1 (some 64) }) = some (1, 2)
    ∧ coldStore.commitCheck (.curve .n1 { d with ts := d.ts.set 4 (some 2469) }) = some (2, 5)
    ∧ coldStore.commitCheck (.curve .n1 { d with ts := d.ts.set 0 none }) = some (2, 1)
    ∧ (2 < (3#8).toNat ∧ (Draft.group .n1 .n1 safeGroup).write ⟨1, 0, 9⟩ = none) := by
  decide

theorem test_witness_StagedFieldsAreWrittenApart :
    safeConstantsDraft.levelMap.length = 6 ∧ unsetCurveDraft.qs.length = 16 ∧ unsetCurveDraft.ts.length = 16 := by
  decide

theorem test_witness_CommitCompletionWritesTheRecord :
    (staged (.committing (.group .n1 .n1 safeGroup))).store.staging = .committing (.group .n1 .n1 safeGroup)
    ∧ (staged (.committing (.feeder .n4 safeConstantsDraft))).store.staging = .committing (.feeder .n4 safeConstantsDraft)
    ∧ (staged (.committing (.curve .n4 unsetCurveDraft))).store.staging = .committing (.curve .n4 unsetCurveDraft)
    ∧ ∀ d, State.reset.store.staging ≠ .committing d :=
  ⟨rfl, rfl, rfl, fun _ h => absurd h notCommitting⟩

/-- UNSET, second 58, and second 59 at the end of 2099; no VALID record, and one that the scrubber reaches from pointer 24. -/
theorem test_witness_SecondTickAdvancesAndScrubs :
    State.reset.cal.clock = none ∧ (setTo { lastSecond with second := 58 }).cal.clock = some { lastSecond with second := 58 }
    ∧ (setTo lastSecond).cal.clock = some lastSecond ∧ lastSecond.real = true ∧ lastSecond.second = 59
    ∧ (∀ n ∈ List.range 24, State.reset.store.validAt (n + 1) = none)
    ∧ ({ coldStore with groups := Four.fill ⟨.valid safeGroup 3#16, .empty, .empty, .empty⟩, scrub := 24 }.validAt 1).isSome
      = true
    ∧ ({ coldStore with groups := Four.fill ⟨.valid safeGroup 3#16, .empty, .empty, .empty⟩, scrub := 24 }.validAt 24)
      = none := by
  decide

/-- Not in LOCKOUT; and in LOCKOUT under TAG_NO_CLOSE, with the breaker in travel, and seen OPEN. -/
theorem test_witness_CloseBreakerIssuesOrRefuses :
    let travel := onSeq { quiet with state := .lockout .protection, position := .travel }
    let blocked := { State.reset with cond := Four.fill { coldCondition with
      causes := { coldCondition.causes with tagNoClose := true } } }
    (∀ c, ((onSeq quiet).seq.get .n1).state ≠ .lockout c)
    ∧ ((blocked.seq.get .n1).state = .lockout .coldReset ∧ (blocked.causes .n1).tagNoClose = true)
    ∧ ((travel.seq.get .n1).state = .lockout .protection ∧ (travel.causes .n1).tagNoClose = false
      ∧ (travel.seq.get .n1).position ≠ .opened)
    ∧ ((State.reset.seq.get .n4).state = .lockout .coldReset ∧ (State.reset.causes .n4).tagNoClose = false
      ∧ (State.reset.seq.get .n4).position = .opened) :=
  ⟨fun _ h => (by cases h), by decide⟩

/-- A state for each clause: CLOSED and RECLAIM by the position, LOCKOUT, TRIPPING, DEAD_TIME, BREAKER_FAIL, and HUNT with the trip
drive on, and off with the breaker OPEN and CLOSED. -/
theorem test_witness_OpenBreakerActsByState :
    let at_ := fun r : Seq => ((onSeq r).seq.get .n1).state
    let pos := fun r : Seq => ((onSeq r).seq.get .n1).position
    let idle := (hunting { quiet with state := .hunt .idle, position := .opened } (aHunt .isolatingDevices)).seq.get .n1
    let opening := (hunting { quiet with state := .hunt .opening, tripDrive := true } (aHunt .isolatingOpen)).seq.get .n1
    let held := (hunting { quiet with state := .hunt .testClosed } (aHunt .testingHold)).seq.get .n1
    (at_ quiet = .closed ∧ pos quiet ≠ .opened)
    ∧ (at_ { quiet with state := .reclaim, position := .opened } = .reclaim
      ∧ pos { quiet with state := .reclaim, position := .opened } = .opened)
    ∧ (at_ { quiet with state := .lockout .blocked, position := .opened } = .lockout .blocked
      ∧ pos { quiet with state := .lockout .blocked, position := .opened } = .opened)
    ∧ at_ { quiet with state := .tripping .protection true } = .tripping .protection true
    ∧ at_ { quiet with state := .deadTime } = .deadTime
    ∧ at_ { quiet with state := .breakerFail .hostOpen } = .breakerFail .hostOpen
    ∧ (opening.state = .hunt .opening ∧ opening.tripDrive = true)
    ∧ (held.state = .hunt .testClosed ∧ held.tripDrive = false ∧ held.position ≠ .opened)
    ∧ (idle.state = .hunt .idle ∧ idle.tripDrive = false ∧ idle.position = .opened) := by
  decide

theorem test_witness_ClearFailAndHostBlockAnswer :
    ((onSeq { quiet with state := .breakerFail .hostOpen }).seq.get .n1).position = .closed
    ∧ ((onSeq { quiet with state := .breakerFail .hostOpen, position := .opened }).seq.get .n1).position ≠ .closed
    ∧ (∀ o, ((onSeq quiet).seq.get .n1).state ≠ .breakerFail o) ∧ 1 < (2#8).toNat :=
  ⟨rfl, by decide, fun _ h => (by cases h), by decide⟩

/-- For each pair of a state and a new position, a record whose position differs from it. -/
theorem test_witness_PositionChangesMoveTheSequence :
    let at_ := fun (x : SeqState) (p : Position) => (onSeq { quiet with state := x, position := p }).seq.get .n1
    (Contacts.decode ⟨true, false⟩, Contacts.decode ⟨false, true⟩, Contacts.decode ⟨false, false⟩, Contacts.decode ⟨true, true⟩)
      = (.closed, .opened, .travel, .invalid)
    ∧ (Contacts.decode ⟨true, false⟩ = (at_ .closed .closed).position)
    ∧ (Contacts.decode ⟨false, true⟩ ≠ (at_ .closed .closed).position ∧ (at_ .closed .closed).state = .closed)
    ∧ (Contacts.decode ⟨false, true⟩ ≠ (at_ .deadTime .invalid).position ∧ (at_ .deadTime .invalid).state = .deadTime)
    ∧ (Contacts.decode ⟨false, true⟩ ≠ (at_ (.breakerFail .huntEnd) .closed).position
      ∧ (at_ (.breakerFail .huntEnd) .closed).state = .breakerFail .huntEnd)
    ∧ (Contacts.decode ⟨false, true⟩ ≠ (at_ (.tripping .hostOpen true) .travel).position
      ∧ (at_ (.tripping .hostOpen true) .travel).state = .tripping .hostOpen true)
    ∧ (Contacts.decode ⟨false, true⟩ ≠ (at_ (.tripping .huntEnd false) .travel).position
      ∧ (at_ (.tripping .huntEnd false) .travel).state = .tripping .huntEnd false)
    ∧ (Contacts.decode ⟨true, false⟩ ≠ (at_ (.closing .reclose) .opened).position
      ∧ (at_ (.closing .reclose) .opened).state = .closing .reclose)
    ∧ (Contacts.decode ⟨true, false⟩ ≠ (at_ (.closing .host) .opened).position
      ∧ (at_ (.closing .host) .opened).state = .closing .host)
    ∧ (Contacts.decode ⟨true, false⟩ ≠ (at_ (.lockout .huntEnd) .opened).position
      ∧ (at_ (.lockout .huntEnd) .opened).state = .lockout .huntEnd)
    ∧ (Contacts.decode ⟨true, false⟩ ≠ (at_ .reclaim .travel).position ∧ (at_ .reclaim .travel).state = .reclaim)
    ∧ (Contacts.decode ⟨true, true⟩ ≠ (at_ .reclaim .travel).position)
    ∧ (Contacts.decode ⟨false, false⟩ ≠ (at_ .reclaim .closed).position) := by
  decide

/-- A VALID group with two shots, forced on feeder 1, and no cause. -/
def twoShots (r : Seq) : State :=
  let s := noCause r
  { s with
    store := { coldStore with groups := Four.fill (Four.fill (.valid { safeGroup with shotCount := 2 } 0#16)) }
    cond := s.cond.set .n1 { s.cond.n1 with group := some .n1, source := .forced } }

/-- The second trip of two, shots left under a cause, the shots used up, and a trip onto a fault. -/
theorem test_witness_TripEndDecidesTheNextState :
    let second := twoShots { quiet with state := .tripping .protection false, shots := 1 }
    let blocked := { second with cond := second.cond.set .n1 { second.cond.n1 with causes := coldCondition.causes } }
    let used := twoShots { quiet with state := .tripping .protection false, shots := 2, tripElement := some .s1 }
    let onto := twoShots { quiet with state := .tripping .protection true, position := .travel }
    ((second.seq.get .n1).state = .tripping .protection false ∧ (second.seq.get .n1).position ≠ .opened
      ∧ (second.seq.get .n1).shots < (second.activeGroup .n1).shotCount ∧ (second.activeGroup .n1).shotCount ≤ 4
      ∧ ∀ x ∈ Cause.all, (second.causes .n1).has x = true → x = .seasonHunt)
    ∧ ((blocked.seq.get .n1).state = .tripping .protection false ∧ (blocked.seq.get .n1).position ≠ .opened
      ∧ (blocked.seq.get .n1).shots < (blocked.activeGroup .n1).shotCount
      ∧ (blocked.causes .n1).has .restorePending = true ∧ Cause.restorePending ≠ .seasonHunt)
    ∧ ((used.seq.get .n1).state = .tripping .protection false ∧ (used.seq.get .n1).position ≠ .opened
      ∧ (used.activeGroup .n1).shotCount ≤ (used.seq.get .n1).shots)
    ∧ ((onto.seq.get .n1).state = .tripping .protection true ∧ (onto.seq.get .n1).position ≠ .opened) := by
  decide

/-- The offer: a group with hunting enabled, no cause and candidates; hunting disabled; a hunt-blocking cause. -/
theorem test_witness_HuntOffer :
    let s := twoShots { quiet with state := .lockout .protection, position := .opened }
    let enabled := { s with
      sections := (Four.fill []).set .n1 map10
      store := { coldStore with groups := Four.fill (Four.fill (.valid { safeGroup with huntEnabled := true } 0#16)) } }
    (enabled.activeGroup .n1).huntEnabled = true ∧ Sys2Proof.huntBlocker enabled .n1 = none
    ∧ candidatesOf (enabled.sections.get .n1) (enabled.locate .n1) ≠ []
    ∧ (s.activeGroup .n1).huntEnabled = false ∧ Sys2Proof.huntBlocker State.reset .n1 = some .seasonHunt
    ∧ candidatesOf (s.sections.get .n1) (s.locate .n1) = [] := by
  decide

/-- Each timer run down in the state in which it runs; the dead timer with no shots left, with a shot left and the breaker seen OPEN,
and with a shot left and the breaker in travel; and no timer running. -/
theorem test_witness_SequenceTimersExpire :
    let at_ := fun r : Seq => (onSeq r).seq.get .n1
    let last := { quiet with state := .deadTime, dead := some 0, shots := 1, position := .opened }
    let spent := onSeq last
    let ready := twoShots last
    let unseen := twoShots { last with position := .travel }
    ((at_ { quiet with state := .tripping .protection false, tripFail := some 0 }).tripFail = some 0
      ∧ (at_ { quiet with state := .tripping .protection false, tripFail := some 0 }).state = .tripping .protection false)
    ∧ ((at_ { quiet with state := .closing .host, closeFail := some 0 }).closeFail = some 0
      ∧ (at_ { quiet with state := .closing .host, closeFail := some 0 }).state = .closing .host)
    ∧ ((spent.seq.get .n1).dead = some 0 ∧ (spent.seq.get .n1).state = .deadTime
      ∧ (spent.activeGroup .n1).shotCount ≤ (spent.seq.get .n1).shots)
    ∧ ((ready.seq.get .n1).dead = some 0 ∧ (ready.seq.get .n1).state = .deadTime ∧ (ready.seq.get .n1).position = .opened
      ∧ (ready.seq.get .n1).shots < (ready.activeGroup .n1).shotCount
      ∧ ∀ y ∈ Cause.all, (ready.causes .n1).has y = true → y = .seasonHunt)
    ∧ ((unseen.seq.get .n1).dead = some 0 ∧ (unseen.seq.get .n1).state = .deadTime ∧ (unseen.seq.get .n1).position ≠ .opened
      ∧ (unseen.seq.get .n1).shots < (unseen.activeGroup .n1).shotCount)
    ∧ ((at_ { quiet with state := .reclaim, reclaim := some 0 }).reclaim = some 0
      ∧ (at_ { quiet with state := .reclaim, reclaim := some 0 }).state = .reclaim)
    ∧ (at_ { quiet with window := some 0 }).window = some 0
    ∧ ((at_ quiet).tripFail = none ∧ (at_ quiet).closeFail = none ∧ (at_ quiet).dead = none ∧ (at_ quiet).reclaim = none
      ∧ (at_ quiet).window = none) := by
  decide

/-! ### Tags and the calendar -/

/-- The state after reset with the tags of a feeder's map held, SET, and with feeder 1's sections. -/
def tagged (ts : List Tag) : State :=
  { setTo aTime with tags := ts, sections := (Four.fill []).set .n1 map10 }

/-- The state after reset with 48 tags. -/
def fullTable : State := { State.reset with tags := (List.range 48).map (fun n => { aTag with number := n + 1 }) }

/-- A HUNT_EXCLUDE tag of number 65535 and holder 9999 on held sections with an expiry a minute away; a full table; and a number that
is borne. -/
theorem test_witness_PlacedTagStands :
    let s := tagged [aTag]
    let e : Minute := ⟨2030, 6, 1, 10, 31⟩
    (1 ≤ 65535 ∧ [2, 3].Nodup ∧ [2, 3].length ≤ 4 ∧ (∀ x ∈ [2, 3], 1 ≤ x ∧ x ≤ 16) ∧ e.real = true
      ∧ (be2 65535 ++ [byte (Ix4.num .n1), byte (TagKind.place .huntExclude)] ++ listOf be1 [2, 3]
        ++ ([byte (Authority.place .localPanel)] ++ be2 9999) ++ opt minuteBytes (some e)).length = 16)
    ∧ (s.tags.length < 48 ∧ (∀ t ∈ s.tags, t.number ≠ 65535) ∧ (∀ x ∈ [2, 3], ((s.sections.get .n1).find x).isSome = true)
      ∧ s.cal.clock = some aTime ∧ aTime.minute.rank < e.rank)
    ∧ (fullTable.tags.length = 48 ∧ fullTable.port.phase = .ready)
    ∧ (s.tags.length < 48 ∧ s.tags.any (fun t => t.number = 5) = true)
    ∧ (TagKind.noClose = .noClose ∧ some e ≠ none ∧ TagKind.noReclose ≠ .huntExclude ∧ [2, 3] ≠ [])
    ∧ (∃ x ∈ [2, 16], (s.sections.get .n1).find x = none)
    ∧ (s.cal.clock = some aTime ∧ aTime.minute.rank ≤ aTime.minute.rank ∧ fullTable.cal.clock = none)
    ∧ (readPlaceTag (be2 0 ++ [1#8, 0#8, 0#8, 0#8, 0#8, 1#8, 0#8]) = some ⟨0, 1, 0, [], 0, 1, none⟩
      ∧ readPlaceTag (be2 1 ++ [1#8, 0#8, 2#8, 3#8, 3#8, 0#8] ++ be2 9999 ++ [0#8]) = some ⟨1, 1, 0, [3, 3], 0, 9999, none⟩
      ∧ ¬ [3, 3].Nodup) := by
  decide

/-- The holder's amend with a later expiry and an added section, and one that removes the expiry; a FROZEN tag; another holder. -/
theorem test_witness_AmendedTagIsWidened :
    let s := tagged [aTag]
    let e : Minute := ⟨2030, 6, 1, 12, 1⟩
    (readAmendTag (be2 5 ++ [1#8] ++ be2 7 ++ [1#8, 1#8] ++ minuteBytes e ++ [1#8, 1#8, 4#8])
        = some ⟨5, 1, 7, some (some e), some [4]⟩
      ∧ readAmendTag (be2 5 ++ [1#8] ++ be2 7 ++ [1#8, 0#8, 0#8]) = some ⟨5, 1, 7, some none, none⟩
      ∧ e.real = true ∧ [4].Nodup ∧ (∀ n ∈ [4], 1 ≤ n ∧ n ≤ 16)
      ∧ s.tags.find? (fun u => decide (u.number = 5)) = some aTag)
    ∧ (aTag.frozen = false ∧ aTag.holder = ⟨.localPanel, 7⟩ ∧ aTag.expiry = some ⟨2030, 6, 1, 12, 0⟩
      ∧ (Minute.rank ⟨2030, 6, 1, 12, 0⟩) < e.rank ∧ s.cal.clock = some aTime ∧ aTime.minute.rank < e.rank
      ∧ aTag.kind = .huntExclude ∧ aTag.scope ≠ []
      ∧ (aTag.scope ++ [4].filter (fun n => !aTag.scope.contains n)).length ≤ 4
      ∧ ∀ n ∈ [4], ((s.sections.get aTag.feeder).find n).isSome = true)
    ∧ (tagged [{ aTag with frozen := true }]).tags.find? (fun u => decide (u.number = 5)) = some { aTag with frozen := true }
    ∧ aTag.holder ≠ ⟨.controlRoom, 7⟩
    ∧ (∃ m : Minute, m.rank ≤ (Minute.rank ⟨2030, 6, 1, 12, 0⟩) ∧ m.real = true)
    ∧ ({ aTag with expiry := none }).expiry = none ∧ ({ aTag with scope := [] }).scope = [] ∧ TagKind.noReclose ≠ .huntExclude
    ∧ 4 < (aTag.scope ++ [4, 5, 6].filter (fun n => !aTag.scope.contains n)).length
    ∧ (∃ n ∈ [16], (s.sections.get aTag.feeder).find n = none)
    ∧ (aTag.scope ++ [16].filter (fun n => !aTag.scope.contains n)).length ≤ 4
    ∧ readAmendTag (be2 5 ++ [1#8] ++ be2 7 ++ [0#8, 0#8]) = some ⟨5, 1, 7, none, none⟩
    ∧ (∀ t ∈ s.tags, t.number ≠ 6) := by
  refine ⟨by decide, by decide, by decide, by decide, ⟨⟨2030, 6, 1, 12, 0⟩, by decide, by decide⟩, ?_⟩
  decide

/-- The holder's own release, a second and a third bad attempt, and a FROZEN tag. -/
theorem test_witness_ReleaseRetiresOrCounts :
    (tagged [aTag]).tags.find? (fun u => decide (u.number = 5)) = some aTag ∧ aTag.frozen = false
    ∧ aTag.holder = ⟨.localPanel, 7⟩ ∧ aTag.holder ≠ ⟨.localPanel, 9999⟩ ∧ aTag.badAttempts < 2
    ∧ ({ aTag with badAttempts := 2 }).badAttempts = 2 ∧ ({ aTag with frozen := true }).frozen = true
    ∧ 9999 < 10000 ∧ 10000 ≤ 65535 ∧ 1 < (2#8).toNat ∧ (∀ t ∈ (tagged [aTag]).tags, t.number ≠ 6) := by
  decide

theorem test_witness_SupervisorReleasesAndRestores :
    1 < (2#8).toNat ∧ (∀ t ∈ State.reset.tags, t.number ≠ 5)
    ∧ (tagged [{ aTag with frozen := true }]).tags.find? (fun u => decide (u.number = 5)) = some { aTag with frozen := true } := by
  decide

theorem test_witness_CalendarIsSet :
    aTime.real = true ∧ lastSecond.real = true
    ∧ readClock [31#8, 2#8, 30#8, 10#8, 30#8, 5#8, 6#8] = some ⟨⟨2031, 2, 30, 10, 30⟩, 5, 6⟩
    ∧ (Clock.real ⟨⟨2031, 2, 30, 10, 30⟩, 5, 6⟩) = false
    ∧ (100#8).toNat ≤ 100 ∧ 156 ≤ (156#8).toNat ∧ (100#8).toInt = 100 ∧ (156#8).toInt = -100
    ∧ 100 < (101#8).toNat ∧ (155#8).toNat < 156
    ∧ [aTag].filter (fun x => !x.frozen && match x.expiry with
      | some e => decide (e.rank ≤ (Minute.rank ⟨2030, 6, 1, 12, 0⟩))
      | none => false) = [aTag] := by
  decide

/-- 04 section 4.6, 05 section 5.2: a calendar set forward retires a tag, with a notice for its feeder. -/
theorem test_set_expires_a_tag :
    ∃ t, exec (.setCalendar (minuteBytes ⟨2030, 6, 1, 12, 0⟩ ++ [0#8, 6#8])) { setTo aTime with tags := [aTag] } = .next t
      ∧ t.tags = [] ∧ t.att.notices.any (fun n => decide (n.detail = .tagExpired aTag.number aTag.holder)) = true :=
  ⟨_, rfl, by decide, by decide⟩

/-- A window over the new year, a declaration with an end, and an entry of each recurrence that can be refused. -/
theorem test_witness_SeasonCommandsWrite :
    realMonthDay 11 15 = true ∧ realMonthDay 2 29 = true
    ∧ ((coldCalendar.windows.set .n1 (some ⟨11, 15, 2, 29, ⟨true, false⟩, 5, true⟩)).get .n1).isSome = true
    ∧ coldCalendar.windows.get .n4 = none
    ∧ (Minute.real ⟨2030, 6, 1, 10, 31⟩) = true ∧ aTime.minute.rank < (Minute.rank ⟨2030, 6, 1, 10, 31⟩)
    ∧ (Recurrence.once ⟨2030, 6, 1, 10, 31⟩).inRange = true ∧ (Recurrence.weekly 6 23 59).inRange = true
    ∧ coldCalendar.schedule.find 16 = none
    ∧ Table.find [(16, (⟨.daily 0 0, .lift ⟨true, true⟩, none⟩ : Entry))] 16 ≠ none
    ∧ coldCalendar.levelOf .a = coldCalendar.levels.get .a
    ∧ readWindowFields [5#8, 1#8, 1#8, 1#8, 2#8, 1#8, 1#8, 0#8] = some ⟨5, 1, 1, 1, 2, 1, 1, 0⟩
    ∧ (readDeclare ([1#8, 5#8, 1#8] ++ minuteBytes aTime.minute) = some ⟨1, 5, some aTime.minute⟩
      ∧ aTime.minute.rank ≤ aTime.minute.rank)
    ∧ readEntryFields [1#8, 4#8, 30#8, 6#8, 1#8, 10#8, 31#8, 1#8, 3#8, 1#8]
      = some ⟨1, .once ⟨2030, 6, 1, 10, 31⟩, .lift 3, 1⟩
    ∧ (4 < (5#8).toNat ∧ 3 < (4#8).toNat ∧ 16 < (17#8).toNat) := by
  decide

/-- 05 R95: the windows of its two examples and one of February 29 alone, on the days at their ends, in 2031 and in 2032. -/
theorem test_worked_windows :
    let winter : Window := ⟨12, 1, 2, 29, ⟨true, false⟩, 5, true⟩
    let spring : Window := ⟨2, 29, 3, 10, ⟨true, false⟩, 5, true⟩
    let leapDay : Window := ⟨2, 29, 2, 29, ⟨true, false⟩, 5, true⟩
    (winter.covers 2031 2 28 = true ∧ winter.covers 2031 3 1 = false ∧ winter.covers 2032 2 29 = true
      ∧ winter.covers 2032 11 30 = false ∧ winter.covers 2032 12 1 = true)
    ∧ (spring.covers 2031 2 28 = false ∧ spring.covers 2031 3 1 = true ∧ spring.covers 2031 3 10 = true
      ∧ spring.covers 2031 3 11 = false ∧ spring.covers 2032 2 29 = true)
    ∧ (leapDay.covers 2031 2 28 = false ∧ leapDay.covers 2031 3 1 = false ∧ leapDay.covers 2032 2 29 = true) := by
  decide

/-- For SeasonCommandsWrite: a slot evaluated and all of them, with one window active of two that name district A, and UNSET. -/
theorem test_witness_evaluation :
    let c := { coldCalendar with
      clock := some aTime
      windows := ⟨some ⟨5, 1, 6, 1, ⟨true, false⟩, 3, true⟩, some ⟨5, 1, 6, 30, ⟨true, true⟩, 5, false⟩, none, none⟩ }
    ((c.evaluate .n1).active.n1 = true ∧ (c.evaluate .n1).floors = ⟨3, 0⟩)
    ∧ ((c.evaluate .n2).active.n1 = false ∧ (c.evaluate .n2).floors = ⟨0, 0⟩) ∧ (c.evaluateAll).floors = ⟨3, 0⟩
    ∧ ({ c with clock := none }).evaluateAll.active = Four.fill false := by
  decide

/-- A tick that carries with and without a date change and at the wrap of the year, one that does not, and UNSET; an entry that matches
the minute reached; a duration that ends with 2099; and a LIVE tag expired. -/
theorem test_witness_MinuteChangeIsHandedOn :
    (setTo lastSecond).cal.clock = some lastSecond ∧ lastSecond.tick = (⟨⟨2000, 1, 1, 0, 0⟩, 0, 5⟩, some ⟨true, true⟩)
    ∧ (Clock.tick { aTime with second := 59 }) = (⟨⟨2030, 6, 1, 10, 31⟩, 0, 6⟩, some ⟨false, false⟩)
    ∧ (Clock.tick ⟨⟨2030, 6, 30, 23, 59⟩, 59, 0⟩) = (⟨⟨2030, 7, 1, 0, 0⟩, 0, 1⟩, some ⟨true, false⟩)
    ∧ (setTo aTime).cal.clock = some aTime ∧ aTime.second < 59 ∧ State.reset.cal.clock = none
    ∧ (Recurrence.daily 10 31).fits ⟨2030, 6, 1, 10, 31⟩ 6 = true ∧ (Recurrence.daily 10 31).fits ⟨2030, 6, 1, 10, 30⟩ 6 = false
    ∧ lastSecond.minute.real = true ∧ addMinutes ⟨2099, 12, 31, 23, 58⟩ 1 = lastSecond.minute
    ∧ addMinutes lastSecond.minute 10080 = lastSecond.minute ∧ addMinutes ⟨2028, 2, 28, 23, 0⟩ 61 = ⟨2028, 2, 29, 0, 1⟩
    ∧ [aTag].filter (fun x => !x.frozen && ((x.expiry.map (fun e => e.le ⟨2030, 6, 1, 12, 0⟩)).getD false)) = [aTag]
    ∧ MinuteTaker.all.Nodup ∧ MinuteTaker.all.length = 4
    ∧ MinuteTaker.all.idxOf .declarations < MinuteTaker.all.idxOf .schedule
    ∧ MinuteTaker.all.reverse.Nodup ∧ MinuteTaker.all.reverse.idxOf .schedule < MinuteTaker.all.reverse.idxOf .declarations := by
  decide

/-- 05 section 5.4: a slot that the schedule writes at the wrap of the year ends the minute with what the entry gave it, in either order,
and another slot's timed declaration is cleared. -/
theorem test_year_wrap_keeps_what_fired :
    let entry : Entry := ⟨.daily 0 0, .declare ⟨true, false⟩ 3 (some 60), none⟩
    let s := { setTo lastSecond with cal := { coldCalendar with
      clock := some lastSecond
      declarations := ⟨none, some ⟨2, some ⟨2099, 12, 31, 23, 59⟩⟩⟩
      schedule := [(4, entry)] } }
    (∃ t, exec (.minuteChange ⟨[.schedule, .declarations, .tags, .windows], none⟩) s = .next t
      ∧ t.cal.declarations = ⟨some ⟨3, some ⟨2000, 1, 1, 1, 0⟩⟩, none⟩)
    ∧ ∃ t, exec (.secondTick none) s = .next t ∧ t.cal.declarations = ⟨some ⟨3, some ⟨2000, 1, 1, 1, 0⟩⟩, none⟩ :=
  ⟨⟨_, rfl, by decide⟩, _, rfl, by decide⟩

/-! ### The condition, the map, hunts and the link -/

theorem test_witness_SelectGroupForcesAndDerives :
    State.reset.port.phase = .ready ∧ 4 < (5#8).toNat ∧ State.reset.latch = false ∧ State.reset.constants .n1 = none
    ∧ (State.constants { State.reset with store := { coldStore with constants := Four.fill (.valid constants2 0#16) } } .n1)
      = some constants2 := by
  decide

theorem test_witness_DerivationTouchesItsFeeder :
    State.reset.cond.get .n1 = State.reset.conditionOf .n1 ∧ Ix4.n2 ≠ .n1
    ∧ (∀ p ∈ (hunting quiet (aHunt .found)).sections.get .n1, ∀ a ∈ p.2.head.toList,
      ∀ q ∈ ([(21, aDevice), (16, aDevice), (9, { aDevice with feeder := .n2 })] : Table Device), q.1 = a → q.2.feeder = .n1) := by
  decide

/-- The state after reset with feeder 1's constants and its group 1 VALID, the group's ceilings given. -/
def serving (reclose hunt : Nat) : State :=
  let g := { safeGroup with recloseCeiling := reclose, huntCeiling := hunt }
  { State.reset with store := { coldStore with
    constants := coldStore.constants.set .n1 (.valid constants2 0#16)
    groups := coldStore.groups.set .n1 ((coldStore.groups.get .n1).set .n1 (.valid g 0#16)) } }

/-- What a derivation works out: each row of the choice of a group, the season causes at their ceilings, and exclusions of two tags. -/
theorem test_witness_Derivation :
    let forced (s : State) (g : GroupNo) : State := { s with inputs := s.inputs.set .n1 { s.inputs.n1 with forced := some g } }
    let c := (serving 5 6).conditionOf .n1
    (State.reset.cal.clock = none ∧ (setTo aTime).cal.clock ≠ none)
    ∧ ((serving 5 6).constants .n1 = some constants2 ∧ State.reset.constants .n1 = none)
    ∧ ((c.group = some .n1 ∧ c.source = .levelMap) ∧ c.level = 5)
    ∧ (c.causes.has .seasonReclose = true ∧ c.causes.has .seasonHunt = false ∧ c.wish = true)
    ∧ (((forced (serving 5 6) .n2).conditionOf .n1).group = none
      ∧ ((forced (serving 5 6) .n2).conditionOf .n1).source = .safeSubstitute)
    ∧ (({ serving 5 6 with latch := true }).conditionOf .n1).source = .fallback
    ∧ (({ State.reset with latch := true }).conditionOf .n1).source = .fallback
    ∧ (({ State.reset with tags := [aTag, { aTag with number := 6, scope := [3, 9] }] }).conditionOf .n1).exclusion
      = .sections [2, 3, 9]
    ∧ (({ State.reset with tags := [aTag, { aTag with number := 6, scope := [] }] }).conditionOf .n1).exclusion = .wholeFeeder := by
  decide

/-- What it hands on: a running dead time with a reclose-blocking cause newly present ends in LOCKOUT(BLOCKED), and a RECLOSER of the
feeder desires its block. -/
theorem test_witness_HandOn :
    let s := { noCause { quiet with state := .deadTime, dead := some 500 } with
      cond := Four.fill { (noCause quiet).cond.n1 with wish := false }
      link := { coldLink false with devices := [(3, { aDevice with kind := .recloser, blockHeld := true })] } }
    (s.seq.n1.state = .deadTime ∧ (s.cond.get .n1).wish ≠ (s.conditionOf .n1).wish)
    ∧ (s.derive .n1).seq.n1.state = .lockout .blocked ∧ (s.derive .n1).seq.n1.dead = none
    ∧ ((s.derive .n1).link.devices.find 3).map (fun (d : Device) => (d.desiredBlock, d.blockHeld)) = some (some .blocked, false) := by
  decide

/-- The state after reset with the worked map and a device at the head of section 4. -/
def mapped : State :=
  { State.reset with
    sections := (Four.fill []).set .n1 map10
    link := { coldLink false with devices := [(17, aDevice), (30, aDevice)] } }

/-- Section 11 written anew under section 3 with device 30 at its head; 10 deleted; 7 with children; 12 EMPTY; base above limit. -/
theorem test_witness_SectionWritesAndDeletes :
    mapped.huntRuns .n1 = false ∧ (mapped.sections.get .n1).find 11 = none ∧ (mapped.sections.get .n1).find 3 ≠ none
    ∧ 11 ∉ ancestors (mapped.sections.get .n1) 3 ∧ mapped.link.devices.find 30 = some aDevice ∧ aDevice.feeder = .n1
    ∧ (∀ g ∈ Ix4.all, ∀ p ∈ mapped.sections.get g, p.2.head ≠ some 30)
    ∧ (∀ p ∈ mapped.sections.get .n1, p.2.parent ≠ 10) ∧ (mapped.sections.get .n1).find 10 ≠ none
    ∧ (mapped.sections.get .n1).any (fun p => p.2.parent = 7) = true
    ∧ (mapped.sections.get .n1).find 12 = none ∧ (119999 < 120000)
    ∧ (hunting quiet (aHunt .testingHold)).huntRuns .n1 = true
    ∧ ((tagged [aTag]).sections.get .n1).find 2 ≠ none ∧ 2 ∈ aTag.scope
    ∧ (7 ∈ ancestors (mapped.sections.get .n1) 8 ∧ (mapped.sections.get .n1).find 8 ≠ none)
    ∧ mapped.link.devices.find 29 = none ∧ (mapped.sections.get .n1).any (fun q => decide (q.2.head = some 17)) = true
    ∧ readSectionFields ([1#8, 16#8] ++ be4 120000 ++ be4 120001 ++ [16#8, 1#8, 30#8, 1#8])
      = some ⟨1, 16, 120000, 120001, 16, some 30, 1⟩ := by
  decide

/-- A start on a feeder in LOCKOUT with candidates and with none, under a cause and not in LOCKOUT; an abandon with the trip drive on,
and off with the breaker CLOSED and OPEN; a final hunt; and no hunt. -/
theorem test_witness_HuntCommandsAnswer :
    let ready := { hunting { quiet with state := .lockout .protection, position := .opened } (aHunt .found) with
      hunts := Four.fill none }
    let empty := noCause { quiet with state := .lockout .protection, position := .opened }
    (∀ c, ((onSeq quiet).seq.get .n1).state ≠ .lockout c)
    ∧ (ready.seq.get .n1).state = .lockout .protection ∧ (ready.seq.get .n1).position = .opened
    ∧ (∀ y ∈ Cause.all, (ready.causes .n1).has y = true → y = .seasonReclose)
    ∧ candidatesOf (ready.sections.get .n1) (ready.locate .n1) = [1, 2, 5, 3, 7, 4, 9, 8, 6]
    ∧ (empty.seq.get .n1).state = .lockout .protection ∧ candidatesOf (empty.sections.get .n1) (empty.locate .n1) = []
    ∧ ((State.reset.causes .n1).has .restorePending = true ∧ Cause.restorePending ≠ .seasonReclose)
    ∧ ((hunting quiet (aHunt .found)).hunts.get .n1 = some (aHunt .found) ∧ (aHunt .found).phase.final = true)
    ∧ ((hunting { quiet with state := .hunt .testClosed } (aHunt .testingHold)).hunts.get .n1 = some (aHunt .testingHold)
      ∧ (aHunt .testingHold).phase.final = false
      ∧ ((hunting { quiet with state := .hunt .testClosed } (aHunt .testingHold)).seq.get .n1).position = .closed
      ∧ ((hunting { quiet with state := .hunt .testClosed } (aHunt .testingHold)).seq.get .n1).tripDrive = false)
    ∧ ((hunting { quiet with state := .hunt .opening, tripDrive := true } (aHunt .isolatingOpen)).seq.get .n1).tripDrive = true
    ∧ State.reset.hunts.get .n1 = none :=
  ⟨fun _ h => (by cases h), by decide⟩

/-- Each moment of a hunt on the breaker that the statement names, with its hunt record not final. -/
theorem test_witness_HuntServesTheBreaker :
    let at_ := fun (x : HuntService) (p : Position) => { quiet with state := .hunt x, position := p }
    let holding := { aHunt .testingHold with hold := some 0 }
    let closing := hunting { at_ .testClosing .travel with closeDrive := true, closeFail := some 0 } (aHunt .testingClose)
    let held := hunting (at_ .testClosed .closed) holding
    let opening := hunting { at_ .opening .closed with tripDrive := true, tripFail := some 0 } (aHunt .isolatingOpen)
    let restoring := hunting { at_ .restoreClosing .opened with closeFail := some 0 } (aHunt .restoringClose)
    let idle := hunting (at_ .idle .opened) (aHunt .isolatingDevices)
    (closing.hunts.get .n1 = some (aHunt .testingClose) ∧ (aHunt .testingClose).phase.final = false
      ∧ (closing.seq.get .n1).state = .hunt .testClosing ∧ (closing.seq.get .n1).position ≠ .closed
      ∧ (closing.seq.get .n1).closeFail = some 0)
    ∧ (held.hunts.get .n1 = some holding ∧ holding.phase = .testingHold ∧ holding.hold = some 0
      ∧ holding.currentSection = some 1 ∧ (held.seq.get .n1).state = .hunt .testClosed
      ∧ (held.seq.get .n1).position ≠ .opened ∧ (held.seq.get .n1).closeDrive = false ∧ (held.seq.get .n1).tripFail = none)
    ∧ (opening.hunts.get .n1 = some (aHunt .isolatingOpen) ∧ (aHunt .isolatingOpen).phase ≠ .testingHold
      ∧ (opening.seq.get .n1).state = .hunt .opening ∧ (opening.seq.get .n1).position ≠ .opened
      ∧ (opening.seq.get .n1).tripFail = some 0)
    ∧ (restoring.hunts.get .n1 = some (aHunt .restoringClose) ∧ (restoring.seq.get .n1).state = .hunt .restoreClosing
      ∧ (restoring.seq.get .n1).closeFail = some 0)
    ∧ (idle.hunts.get .n1 = some (aHunt .isolatingDevices) ∧ (idle.seq.get .n1).state = .hunt .idle
      ∧ (idle.seq.get .n1).position ≠ .closed)
    ∧ ((hunting (at_ .idle .closed) (aHunt .isolatingDevices)).seq.get .n1).position = .closed := by
  decide

/-- The state of a hunt on the worked map, the device of each section's head desired and acknowledged CLOSED, within a hunt that the
group's exclusion set of section 5 bounds. -/
def devicesClosed : State :=
  let s := hunting { quiet with state := .hunt .idle, position := .opened } { aHunt .isolatingDevices with named := [21] }
  { s with
    cond := s.cond.set .n1 { s.cond.n1 with exclusion := .sections [5] }
    link := { coldLink false with devices := [16, 17, 18, 20, 21, 22, 23].map (fun a =>
      (a, { aDevice with desired := some .closed, ack := some .closed, owner := .hunt })) } }

/-- The step: a candidate skipped and one taken, none left, devices that match, that do not and that cannot be ordered; the block, the
budget and the breaker in travel. -/
theorem test_witness_HuntSteps :
    let s := devicesClosed
    let t := s.sections.get .n1
    let local_ := { aDevice with reach := .local }
    (skipped t (.sections [5]) 5 = true ∧ skipped t (.sections [5]) 3 = false ∧ skipped t .wholeFeeder 3 = true)
    ∧ ([⟨5, .pending⟩, ⟨3, .pending⟩] : List Candidate) = [⟨5, .pending⟩] ++ ⟨3, .pending⟩ :: []
    ∧ (namedClosed t 2 = [21] ∧ sortNums (namedOpen t (.sections [5]) 2 ++ namedClosed t 2) = [16, 18, 21])
    ∧ (((linked [(21, local_)]).link.devices.find 21).map (·.reach) = some .local)
    ∧ (s.link.devices.find 21).map Device.matched = some true ∧ t.length ≤ 16
    ∧ Sys2Proof.huntBlocker s .n1 = none ∧ (aHunt .isolatingDevices).used ≠ (aHunt .isolatingDevices).budget
    ∧ ({ aHunt .isolatingDevices with used := 3 }).used = (aHunt .isolatingDevices).budget
    ∧ ((s.seq.get .n1).state = .hunt .idle ∧ (s.seq.get .n1).position = .opened)
    ∧ ((hunting { quiet with state := .hunt .idle, position := .travel } (aHunt .isolatingDevices)).seq.get .n1).position ≠ .opened := by
  decide

/-- The restore: a faulted candidate with an isolating device and without one, and none; and the needed set of the hunt above met. -/
theorem test_witness_HuntRestores :
    let found := { aHunt .restoringOpen with candidates := [⟨7, .faulted⟩] }
    let bare := { aHunt .restoringOpen with candidates := [⟨1, .faulted⟩] }
    (Sys2Proof.faultedSection found = some 7 ∧ nearestHead map10 7 = some 20)
    ∧ (Sys2Proof.faultedSection bare = some 1 ∧ nearestHead map10 1 = none)
    ∧ Sys2Proof.faultedSection (aHunt .restoringOpen) = none
    ∧ (aHunt .testingHold).currentSection = some 1 ∧ skipped map10 (.sections [5]) 1 = false
    ∧ 5 ∉ energised map10 [] 1 ∧ HuntPhase.restoringClose ∉ [HuntPhase.isolatingOpen, .isolatingDevices, .testingClose, .testingHold] := by
  decide

/-- The needed set is met at devicesClosed, and not where the device has an order in flight. -/
theorem test_witness_allStand : Sys2Proof.allStand devicesClosed.link.devices [21] ∧ 21 ∈ [21]
    ∧ ¬ Sys2Proof.allStand devices3.link.devices [30] := by
  refine ⟨fun a h => ?_, by decide, fun h => ?_⟩
  · cases h with
    | head => exact ⟨_, rfl, rfl, by decide, rfl⟩
    | tail _ h => cases h
  · obtain ⟨d, hd, hi, -⟩ := h 30 (.head _)
    cases hd; cases hi

/-- A new record behind relay 1, a rewrite of device 1, and the records that may and may not be deleted. -/
theorem test_witness_DeviceCommandsAnswer :
    devices3.link.devices.find 1 = some aDevice ∧ aDevice.relay = none ∧ devices3.link.devices.find 4 = none
    ∧ devices3.link.devices.length < 24 ∧ aDevice.inFlight = none ∧ 1 ∉ devices3.link.resends
    ∧ (∀ g ∈ Ix4.all, ∀ p ∈ devices3.sections.get g, p.2.head ≠ some 2)
    ∧ (∀ p ∈ devices3.link.devices, p.1 ≠ 2 → p.2.relay ≠ some 2)
    ∧ devices3.link.devices.any (fun p => p.1 ≠ 1 && decide (p.2.relay = some 1)) = true
    ∧ ((devices3.link.devices.find 30).bind (·.inFlight)).isSome = true := by
  decide

/-- For DeviceCommandsAnswer: a full table, a relay that is tier 2 or of another feeder, a record in flight, a head of a section, a relay
of another record, and a tier that does not fit the relay. -/
theorem test_witness_DeviceRefusals :
    let full := linked ((List.range 24).map (fun i => (i + 1, aDevice)))
    (full.link.devices.find 25 = none ∧ ¬ full.link.devices.length < 24)
    ∧ ((devices3.link.devices.find 2).bind (·.relay) = some 1 ∧ (devices3.link.devices.find 1).map (·.feeder) ≠ some .n2)
    ∧ ((devices3.link.devices.find 30).bind (·.inFlight)).isSome = true
    ∧ (devicesClosed.sections.n1.any (fun p => decide (p.2.head = some 21)) = true ∧ (Ix4.n2 ≠ .n1))
    ∧ devices3.link.devices.any (fun p => decide (p.1 ≠ 1 ∧ p.2.relay = some 1)) = true
    ∧ readDeviceFields [30#8, 4#8, 1#8, 1#8, 1#8, 5#8] = some ⟨30, 4, 1, 1, some 5⟩
    ∧ ((0#8).toNat = 0 ∧ 30 < (31#8).toNat) := by
  decide

theorem test_witness_LinkCommandsAnswer :
    devices3.port.phase = .ready ∧ ((0#8).toNat = 0 ∨ 30 < (31#8).toNat) ∧ 2 < (3#8).toNat
    ∧ (3#8 ≠ 1#8 ∧ 3#8 ≠ 2#8 ∧ 3#8 ≠ 4#8)
    ∧ (devices3.link.devices.filter (fun p => p.2.inFlight.isSome)).length = 1
    ∧ (devicesClosed.hunts.n1.map (fun h => (h.phase, h.named)) = some (.isolatingDevices, [21])) := by
  decide

/-- SENDING and IDLE, a clear frame and a resend that wait, the limit reached, and device 1 first to need service in its class. -/
theorem test_witness_TheLinkSendsByPriority :
    ({ devices3.link with sending := some (.order 30 0 .openSwitch 15) }).sending ≠ none
    ∧ devices3.link.sending = none ∧ (coldLink false).clearWaits = true ∧ devices3.link.clearWaits = false
    ∧ ({ devices3.link with resends := [30] }).resends = 30 :: []
    ∧ ((devices3.link.devices.find 30).bind (·.inFlight)) = some ⟨.openSwitch, 15, 1, some 0⟩
    ∧ ({ devices3.link with limit := 1 }).limit ≤ (devices3.link.devices.filter (fun p => p.2.inFlight.isSome)).length
    ∧ devices3.link.resends = [] ∧ devices3.link.devices.sorted = true
    ∧ (devices3.link.devices.filter (fun p => p.2.inFlight.isSome)).length < devices3.link.limit
    ∧ aDevice.needs .hostPosition = true ∧ ({ aDevice with desiredBlock := some .blocked }).desiredBlock = some .blocked
    ∧ (∀ p ∈ devices3.link.devices, ∀ l ∈ [ServiceClass.huntPosition, .block], p.2.inFlight = none → p.2.needs l = false)
    ∧ (∀ p ∈ devices3.link.devices, p.2.inFlight = none → p.2.needs .hostPosition = true → (0 < p.1 → 1 ≤ p.1))
    ∧ (∀ p ∈ (linked [(7, { aDevice with desired := none })]).link.devices, ∀ k ∈ ServiceClass.all, p.2.needs k = false) := by
  decide

/-- Device 30 with its order of tag 15 in flight, a reply of it and one of tag 0, its timer at each send, and a probe timer. -/
theorem test_witness_RepliesAndTimeoutsEndOrders :
    devices3.link.devices.find 30 = some { aDevice with inFlight := some ⟨.openSwitch, 15, 1, some 0⟩, desired := none }
    ∧ (withCrc [byte 30, byte 15, byte 2, 1#8, byte 1]).length = 7
    ∧ (∀ d ∈ (devices3.link.devices.find 1).toList, d.inFlight = none) ∧ devices3.link.devices.find (29#8).toNat = none
    ∧ ((List.replicate 7 9#8)[2]? = some 9#8 ∧ 2 < (9#8).toNat)
    ∧ ({ aDevice with kind := .recloser }).kind = .recloser ∧ 1 < (2#8).toNat
    ∧ (List.replicate 8 0#8).length ≠ 7
    ∧ ((devices3.link.devices.find 30).bind (·.inFlight)).map (·.timer) = some (some 0)
    ∧ ((devices3.link.devices.find 1).bind (·.inFlight)) = none ∧ devices3.link.devices.find 29 = none
    ∧ (devices3.link.devices.find 2).bind (·.probe) = some 0
    ∧ ((linked [(2, { aDevice with probe := some 0 })]).link.devices.find 2).map (·.reach) = some .reachable
    ∧ (21 ∈ (devicesClosed.hunts.n1.map (·.named)).getD [] ∧ 16 ∉ (devicesClosed.hunts.n1.map (·.named)).getD []) := by
  decide

/-- 08 section 8.2: a telling on a hunt-owned device that the step does not name has the needed set judged afresh, and all of it stands,
so that the test close is asked for. -/
theorem test_any_owned_device_judges :
    let s := devicesClosed
    (s.huntDevice .n1 16 none none).hunts.n1.map (·.phase) = some .testingClose
    ∧ (s.huntDevice .n1 16 (some .refused) none).hunts.n1.map (·.phase) = some .testingClose
    ∧ (s.huntDevice .n1 21 (some .refused) none).hunts.n1.map (·.phase) = some (.abandoned .link) := by
  decide

/-! ### Attention -/

/-- Two notices, the second of the higher level, and none. -/
theorem test_witness_AttentionCommandsAnswer :
    State.reset.att.notices = []
    ∧ ({ coldAttention with notices := [⟨.feeder .n1, .measLost, 0⟩, ⟨.feeder .n1, .lockout .blocked 1, 0⟩] }).ordered = true
    ∧ (∀ k ∈ NoticeKind.all, defaultLevels.get k ≤ 7)
    ∧ (defaultLevels.set .lockout 7).get .measLost < (defaultLevels.set .lockout 7).get .lockout
    ∧ defaultLevels.get .lockout ≤ defaultLevels.get .measLost
    ∧ (0#8 = 0#8 ∨ 12 < (13#8).toNat ∨ 7 < (8#8).toNat) ∧ NoticeKind.commitDone ≠ .supervision := by
  decide

/-- What giving does: at level 0 nothing, a notice pending folded with its count at its most, and one that enters between two others. -/
theorem test_witness_Give :
    let a := { coldAttention with levels := defaultLevels.set .lockout 3 }
    let b := { a with notices := [⟨.feeder .n1, .lockout .blocked 1, 255⟩] }
    ({ a with levels := defaultLevels.set .lockout 0 }).levels.get .lockout = 0 ∧ a.levels.get .lockout ≠ 0
    ∧ (b.ordered = true ∧ (b.give (.feeder .n1) (.lockout .huntEnd 2)).notices = [⟨.feeder .n1, .lockout .huntEnd 2, 255⟩])
    ∧ (a.give (.feeder .n2) (.lockout .blocked 0)).notices = [⟨.feeder .n2, .lockout .blocked 0, 0⟩] := by
  decide

theorem test_witness_SupervisionWatchesTheHost :
    coldAttention.action = .alert ∧ ({ coldAttention with action := .fallback, period := 60 }).action = .fallback
    ∧ 60 < (61#8).toNat ∧ 1 < (2#8).toNat ∧ coldAttention.timer = none
    ∧ ({ coldAttention with action := .fallback, period := 60, timer := some 0, expiries := 1 }).expiries = 1
    ∧ State.reset.latch = false := by
  decide

/-! ## A few commands run -/

/-- 10 section 10.3: the second expiry in a row under FALLBACK sets the latch, and SUPERVISION asserts the line. -/
theorem test_supervision_fallback :
    ∃ t, exec .supervisionExpiry { State.reset with
        att := { coldAttention with action := .fallback, period := 60, timer := some 0, expiries := 1 } } = .next t
      ∧ t.latch = true ∧ t.att.line = true ∧ t.att.timer = some 60000 :=
  ⟨_, rfl, by decide, by decide, by decide⟩

/-- The state that a command ends in. -/
def ran (i : Instr) (s : State) : State :=
  match exec i s with
  | .next t => t
  | .fault _ | .refused _ => s

/-- 01 section 1.6: the report that operates P2 and E2 trips a closed breaker once, with trip element P2, and gives TRIP. -/
theorem test_report_trips :
    let t := ran (.intervalReport (withCrc (Sys2Proof.reportContent 1 7 912 10 10 500 0 0 0)) false)
      { nearTrip with seq := nearTrip.seq.set .n1 quiet }
    (t.seq.get .n1).state = .tripping .protection false ∧ (t.seq.get .n1).tripElement = some .p2
      ∧ (t.seq.get .n1).tripDrive = true ∧ t.att.notices.map (·.detail) = [.trip .p2 0] := by
  decide +kernel

/-- 05 section 5.1: the second after 23:59:59 of 28 February 2028, a leap year, is 29 February, a day of the week later. -/
theorem test_second_tick_leap_day :
    ∃ t, exec (.secondTick none) (setTo ⟨⟨2028, 2, 28, 23, 59⟩, 59, 6⟩) = .next t
      ∧ t.cal.clock = some ⟨⟨2028, 2, 29, 0, 0⟩, 0, 0⟩ :=
  ⟨_, rfl, by decide⟩

/-- 09 section 9.3: with nothing tried before, the arbiter orders device 1 opened with tag 0 and counts the tag on. -/
theorem test_arbiter_orders_device_1 :
    ∃ t, exec (.arbiterChoice false) devices3 = .next t
      ∧ t.link.sending = some (.order 1 0 .openSwitch 0) ∧ t.link.tagCounter = 1
      ∧ (t.link.devices.find 1).bind (·.inFlight) = some ⟨.openSwitch, 0, 1, none⟩ :=
  ⟨_, rfl, by decide, by decide, by decide⟩

end Sys2Proof.Tests
end

/-! The arithmetic of the Element Engine: the multiple of pickup, the increment of a running sum and its fall (01 R10, R14, R16). -/

namespace Sys2Proof.Machine

/-! ## The measured quantity and the multiple of pickup (01 R10) -/

theorem Element.quantity_of_earth {e : Element} (p : Report) (h : e.earth = true) : e.quantity p = p.ir := if_pos h

theorem Element.quantity_of_not_earth {e : Element} (p : Report) (h : e.earth = false) :
    e.quantity p = max p.ia (max p.ib p.ic) := by
  simp [Element.quantity, Report.phase, h]

theorem multiple_self {x : Nat} (h : 1 ≤ x) : multiple x x = 64 := by
  simp [multiple, Nat.mul_div_cancel_left 64 h]

/-- The clamp of 2560 is forty times pickup. -/
theorem multiple_eq_clamp_iff {quantity pickup : Nat} (h : 1 ≤ pickup) :
    multiple quantity pickup = 2560 ↔ 40 * pickup ≤ quantity := by
  have hdiv : 2560 ≤ quantity * 64 / pickup ↔ 2560 * pickup ≤ quantity * 64 := Nat.le_div_iff_mul_le h
  unfold multiple
  omega

/-- Settles O25: each element's quantity, one times pickup, and the clamp at forty times pickup. -/
theorem multipleOfPickup : Obligations.MultipleOfPickup := by
  refine ⟨fun p x _ => ?_, fun x hx => ?_, fun i => ?_, fun i => ?_⟩
  · have phase {e : Element} (h : e.earth = false) :
        multiple (e.quantity p) x = min 2560 (max p.ia (max p.ib p.ic) * 64 / x) := by
      rw [Element.quantity_of_not_earth p h, multiple]
    have residual {e : Element} (h : e.earth = true) : multiple (e.quantity p) x = min 2560 (p.ir * 64 / x) := by
      rw [Element.quantity_of_earth p h, multiple]
    exact ⟨phase rfl, phase rfl, residual rfl, residual rfl, residual rfl⟩
  · exact ⟨multiple_self hx, (multiple_eq_clamp_iff hx).mpr (Nat.le_refl _)⟩
  · exact multiple_eq_clamp_iff (by decide)
  · exact multiple_eq_clamp_iff (by decide)

/-! ## The increment of a running sum (01 R14) -/

/-- The trip time Tt of 01 R14, of a curve's time and a time multiplier in hundredths. -/
def scaledTime (time tm : Nat) : Nat := max 10 (time * tm / 100)

theorem increment_eq (time tm : Nat) : increment time tm = 10000000 / scaledTime time tm := rfl

theorem ten_le_scaledTime (time tm : Nat) : 10 ≤ scaledTime time tm := Nat.le_max_left ..

theorem scaledTime_le {time tm : Nat} (htime : time ≤ 600000) (htm : tm ≤ 150) : scaledTime time tm ≤ 900000 := by
  have hprod : time * tm ≤ 600000 * 150 := Nat.mul_le_mul htime htm
  unfold scaledTime
  omega

/-- Tt falls short of the exact time by less than a millisecond. -/
theorem lt_succ_scaledTime (time tm : Nat) : time * tm < (scaledTime time tm + 1) * 100 := by
  unfold scaledTime
  omega

theorem increment_le (time tm : Nat) : increment time tm ≤ 1000000 :=
  Nat.div_le_of_le_mul (Nat.mul_le_mul_right 1000000 (ten_le_scaledTime time tm))

theorem eleven_le_increment {time tm : Nat} (htime : time ≤ 600000) (htm : tm ≤ 150) : 11 ≤ increment time tm := by
  have hpos : 0 < scaledTime time tm := Nat.lt_of_lt_of_le (by decide) (ten_le_scaledTime time tm)
  have hle : scaledTime time tm ≤ 900000 := scaledTime_le htime htm
  exact (Nat.le_div_iff_mul_le hpos).mpr (by omega)

/-- Reports enough to fill the sum, n of them, give inc × n ≥ 1,000,000; as inc × Tt is at most 10,000,000, n × 10 is at least Tt. -/
theorem scaledTime_le_of_fills {time tm n : Nat} (hpos : 0 < increment time tm) (hfull : 1000000 ≤ increment time tm * n) :
    scaledTime time tm ≤ n * 10 := by
  have hshare : increment time tm * scaledTime time tm ≤ 10000000 := Nat.div_mul_le_self ..
  refine Nat.le_of_mul_le_mul_left ?_ hpos
  calc increment time tm * scaledTime time tm ≤ 10000000 := hshare
    _ ≤ increment time tm * n * 10 := Nat.mul_le_mul_right 10 hfull
    _ = increment time tm * (n * 10) := Nat.mul_assoc ..

/-- The quotient of a by b, rounded up, reaches a again when multiplied by b. -/
theorem le_mul_roundedUp {a b : Nat} (h : 0 < b) : a ≤ b * ((a + b - 1) / b) := by
  have hlt : a + b - 1 < b * ((a + b - 1) / b) + b := Nat.lt_mul_div_succ (a + b - 1) h
  omega

/-- Settles O27: the ranges of Tt bound the increment, and the reports that fill the sum span at least Tt. -/
theorem incrementOfTheSum : Obligations.IncrementOfTheSum := by
  intro T tm _ hT _ htm
  have hinc : 11 ≤ increment T tm := eleven_le_increment hT htm
  have hpos : 0 < increment T tm := by omega
  exact ⟨increment_eq T tm, ten_le_scaledTime T tm, scaledTime_le hT htm, lt_succ_scaledTime T tm, hinc, increment_le T tm,
    scaledTime_le_of_fills hpos (le_mul_roundedUp hpos)⟩

/-! ## The fall of a running sum (01 R16) -/

@[simp] theorem decay_zero (sum : Nat) : decay sum 0 = 0 := rfl

theorem decay_of_pos {resetTime : Nat} (sum : Nat) (h : 1 ≤ resetTime) :
    decay sum resetTime = sum - 10000000 / resetTime := if_neg (Nat.ne_of_gt h)

@[simp] theorem decay_empty (resetTime : Nat) : decay 0 resetTime = 0 := by
  cases resetTime with
  | zero => rfl
  | succ n => rw [decay_of_pos 0 n.succ_pos, Nat.zero_sub]

theorem fullSum_le_decrement {resetTime : Nat} (hpos : 1 ≤ resetTime) (hle : resetTime ≤ 10) :
    1000000 ≤ 10000000 / resetTime :=
  (Nat.le_div_iff_mul_le hpos).mpr (Nat.mul_le_mul_left 1000000 hle)

theorem decay_of_le_ten {sum resetTime : Nat} (hle : resetTime ≤ 10) (hsum : sum ≤ 1000000) : decay sum resetTime = 0 := by
  rcases Nat.eq_zero_or_pos resetTime with rfl | hpos
  · rfl
  · rw [decay_of_pos sum hpos]
    exact Nat.sub_eq_zero_of_le (Nat.le_trans hsum (fullSum_le_decrement hpos hle))

/-- The sum left after n dropped reports in a row. -/
theorem repeat_decay {resetTime : Nat} (h : 1 ≤ resetTime) (n sum : Nat) :
    Nat.repeat (fun s => decay s resetTime) n sum = sum - n * (10000000 / resetTime) := by
  induction n with
  | zero => simp [Nat.repeat]
  | succ n ih => rw [Nat.repeat, ih, decay_of_pos _ h, Nat.sub_sub, Nat.succ_mul]

/-- A dropped report of an inverse-time element that is not held dropped lets its sum fall, clears the rest and does not operate. -/
theorem evaluate_dropped {x : Setting} {p : Report} {r : ElementRecord} (hinv : x.element.inverse = true)
    (hheld : heldDropped x.settings x.shot = false) (hdrop : picksUp x.element x.settings p r.pickedUp = false) :
    evaluate x p r = (⟨false, decay r.progress x.settings.resetTime, false, none⟩, false) := by
  simp [evaluate, hinv, hheld, hdrop]

/-- Settles O28: a dropped report is a fall by `decay`, whose repetition has a closed form. -/
theorem decayOfTheSum : Obligations.DecayOfTheSum := by
  refine ⟨fun x p r hinv hheld hdrop => ?_, fun sum => decay_of_pos sum (by decide), ?_, ?_⟩
  · rw [evaluate_dropped hinv hheld hdrop]
    exact ⟨rfl, rfl, fun h0 => by simp [h0], decay_of_pos r.progress, decay_of_le_ten, fullSum_le_decrement,
      fun hempty => by simp [hempty]⟩
  · rw [repeat_decay (by decide)]
  · rw [repeat_decay (by decide)]
    decide

end Sys2Proof.Machine

/-! What the operations on one feeder's breaker and hunt touch: the records of that feeder, the desires of devices, and the pending
notices of its scope (03, 08). -/

namespace Sys2Proof.Machine

/-! ## Conditionals and lists -/

theorem ite_of_iff {α : Type} {p q : Prop} [Decidable p] [Decidable q] {a b c d : α} (h : p ↔ q) (hthen : a = c) (helse : b = d) :
    (if p then a else b) = if q then c else d :=
  ite_congr (propext h) (fun _ => hthen) fun _ => helse

theorem ite_and_nested {α : Type} {p q : Prop} [Decidable p] [Decidable q] {a b : α} :
    (if p ∧ q then a else b) = if p then (if q then a else b) else b := by
  by_cases hp : p
  · rw [if_pos hp]
    exact ite_of_iff (and_iff_right hp) rfl rfl
  · rw [if_neg hp, if_neg fun h => hp h.1]

theorem eq_of_nodup_map {α β : Type} {g : α → β} {xs : List α} (hs : (xs.map g).Nodup) {x y : α} (hx : x ∈ xs) (hy : y ∈ xs)
    (e : g x = g y) : x = y := by
  induction xs with
  | nil => cases hx
  | cons z rest ih =>
    rw [List.map_cons, List.nodup_cons] at hs
    rcases List.mem_cons.mp hx with rfl | hx' <;> rcases List.mem_cons.mp hy with rfl | hy'
    · rfl
    · exact absurd (e ▸ List.mem_map_of_mem hy') hs.1
    · exact absurd (e ▸ List.mem_map_of_mem hx') hs.1
    · exact ih hs.2 hx' hy'

theorem foldl_eq_of_mem {α β : Type} {g k : β → α → β} {xs : List α} (h : ∀ b, ∀ x ∈ xs, g b x = k b x) (b : β) :
    xs.foldl g b = xs.foldl k b := by
  induction xs generalizing b with
  | nil => rfl
  | cons x rest ih =>
    rw [List.foldl_cons, List.foldl_cons, h b x (List.mem_cons_self ..)]
    exact ih (fun b y hy => h b y (List.mem_cons_of_mem _ hy)) _

/-! ## Head devices of a section map -/

/-- A device stands at the head of some section of a map. -/
def headsSome (t : Table Section) (a : Nat) : Prop := ∃ p ∈ t, p.2.head = some a

theorem headsSome_of_headOf {t : Table Section} {n a : Nat} (h : headOf t n = some a) : headsSome t a := by
  unfold headOf at h
  cases hn : t.find n with
  | none => simp [hn] at h
  | some x => exact ⟨(n, x), Table.find_mem hn, by simpa [hn] using h⟩

theorem headsSome_of_nearestHead {t : Table Section} {n a : Nat} (h : nearestHead t n = some a) : headsSome t a := by
  obtain ⟨m, _, hm⟩ := List.exists_of_findSome?_eq_some h
  exact headsSome_of_headOf hm

theorem headsSome_of_mem_namedClosed {t : Table Section} {n a : Nat} (h : a ∈ namedClosed t n) : headsSome t a := by
  obtain ⟨m, _, hm⟩ := List.mem_filterMap.mp h
  exact headsSome_of_headOf hm

theorem headsSome_of_mem_namedOpen {t : Table Section} {x : Exclusion} {n a : Nat} (h : a ∈ namedOpen t x n) :
    headsSome t a := by
  rcases List.mem_append.mp h with h | h
  · obtain ⟨m, _, hm⟩ := List.mem_filterMap.mp h
    exact headsSome_of_headOf hm
  · cases x with
    | wholeFeeder => cases h
    | sections ns =>
      obtain ⟨m, _, hm⟩ := List.mem_filterMap.mp h
      exact headsSome_of_nearestHead hm

/-! ## Devices and notices -/

/-- A device less what hunts and Permission Logic write of it: the desired states, the owner and the held-back marks. -/
def Device.plain (d : Device) : Device :=
  { d with desired := none, owner := .host, posHeld := false, desiredBlock := none, blockHeld := false }

@[simp] theorem Device.plain_huntSet (p : SwitchPos) (d : Device) : (d.huntSet p).plain = d.plain := rfl

@[simp] theorem Device.plain_returned (keep : Bool) (d : Device) : (d.returned keep).plain = d.plain := by
  cases keep <;> rfl

@[simp] theorem Device.plain_wished (w : Bool) (d : Device) : (d.wished w).plain = d.plain := by
  unfold Device.wished
  split <;> rfl

theorem Device.feeder_of_plain {d e : Device} (h : d.plain = e.plain) : d.feeder = e.feeder :=
  (congrArg (fun x : Device => x.feeder) h :)

theorem Device.inFlight_of_plain {d e : Device} (h : d.plain = e.plain) : d.inFlight = e.inFlight :=
  (congrArg (fun x : Device => x.inFlight) h :)

/-- The entries of a device table, less what hunts and Permission Logic write of them. -/
def Table.plain (t : Table Device) : Table Device := t.map (fun p => (p.1, p.2.plain))

/-- The entries of the other feeders. -/
def Table.foreign (f : Feeder) (t : Table Device) : Table Device := t.filter (fun p => decide (p.2.feeder ≠ f))

theorem Table.plain_mapAll {t : Table Device} {g : Nat → Device → Device} (hg : ∀ a d, (g a d).plain = d.plain) :
    Table.plain (t.mapAll g) = t.plain := by
  simp [Table.plain, Table.mapAll, hg]

theorem Table.foreign_mapAll {f : Feeder} {t : Table Device} {g : Nat → Device → Device}
    (hp : ∀ a d, (g a d).plain = d.plain) (hg : ∀ a d, (a, d) ∈ t → d.feeder ≠ f → g a d = d) :
    Table.foreign f (t.mapAll g) = t.foreign f := by
  induction t with
  | nil => rfl
  | cons p rest ih =>
    have hrest := ih fun a d h => hg a d (List.mem_cons_of_mem _ h)
    have hfeeder : (g p.1 p.2).feeder = p.2.feeder := Device.feeder_of_plain (hp _ _)
    have hcons : Table.mapAll (p :: rest) g = (p.1, g p.1 p.2) :: Table.mapAll rest g := rfl
    unfold Table.foreign at hrest ⊢
    rw [hcons, List.filter_cons, List.filter_cons, hrest, hfeeder]
    by_cases hf : p.2.feeder = f
    · simp [hf]
    · simp [hf, hg p.1 p.2 (List.mem_cons_self ..) hf]

theorem mem_of_plain_eq {t u : Table Device} (h : t.plain = u.plain) {a : Nat} {d : Device} (hd : (a, d) ∈ t) :
    ∃ e, (a, e) ∈ u ∧ d.feeder = e.feeder := by
  have hm : (a, d.plain) ∈ u.plain := h ▸ List.mem_map.mpr ⟨(a, d), hd, rfl⟩
  obtain ⟨⟨b, e⟩, he, hbe⟩ := List.mem_map.mp hm
  obtain ⟨rfl, hplain⟩ := Prod.mk.inj hbe
  exact ⟨e, he, Device.feeder_of_plain hplain.symm⟩

/-- Notices of one key are of one scope (10 R187). -/
theorem scope_of_noticeKey_eq {k k' : NoticeKind} {x x' : Scope} (h : noticeKey k x = noticeKey k' x') : x = x' := by
  have hle : ∀ y : Scope, y.place < 8 := fun y => by
    cases y with
    | part => decide
    | feeder f => cases f <;> decide
  have hplace : x.place = x'.place := by
    have h1 := hle x
    have h2 := hle x'
    unfold noticeKey at h
    omega
  cases x with
  | part => cases x' with
    | part => rfl
    | feeder f => cases f <;> cases hplace
  | feeder f => cases x' with
    | part => cases f <;> cases hplace
    | feeder g => cases f <;> cases g <;> first | rfl | cases hplace

/-- The pending notices of the other scopes. -/
def otherNotices (f : Feeder) (ns : List Notice) : List Notice := ns.filter (fun n => decide (n.scope ≠ .feeder f))

theorem otherNotices_enterNotice (f : Feeder) (d : Detail) (ns : List Notice) :
    otherNotices f (enterNotice (.feeder f) d ns) = otherNotices f ns := by
  unfold otherNotices
  induction ns with
  | nil => simp [enterNotice]
  | cons n rest ih =>
    simp only [enterNotice]
    split
    · simp
    · split
      · next he =>
        have hscope : n.scope = .feeder f := (scope_of_noticeKey_eq he).symm
        simp [hscope]
      · rw [List.filter_cons, List.filter_cons, ih]

/-! ## Handing on -/

/-- A handing on is made of five operations on its feeder (06 R123). -/
theorem State.handOn_induct {P : State → Prop} {f : Feeder} {old new : Condition}
    (hgive : ∀ s m n, P s → P (s.give (.feeder f) (.levelChange m n))) (hwish : ∀ s w, P s → P (s.setWish f w))
    (hreclose : ∀ s, P s → P (s.sequenceCause f)) (hcause : ∀ s c, P s → P (s.huntCause f c))
    (hexclusion : ∀ s, P s → P (s.huntExclusion f)) {s : State} (h : P s) : P (s.handOn f old new) := by
  have level : P (if old.level = new.level then s else s.give (.feeder f) (.levelChange old.level new.level)) :=
    iteInduction (fun _ => h) fun _ => hgive _ _ _ h
  have wish := iteInduction (c := old.wish = new.wish) (motive := P) (fun _ => level) fun _ => hwish _ new.wish level
  have reclose := iteInduction (c := (Causes.fresh old.causes new.causes).any Cause.blocksReclose = true) (motive := P)
    (fun _ => hreclose _ wish) fun _ => wish
  unfold State.handOn
  dsimp only
  refine iteInduction (fun _ => ?_) fun _ => hexclusion _ ?_
  all_goals
    split
    · exact hcause _ _ reclose
    · exact reclose

/-! ## The relation -/

/-- Every head device of a feeder's sections is a device of that feeder (07 section 7.2). -/
def State.headsHome (s : State) (f : Feeder) : Prop := ∀ a, headsSome (s.sections.get f) a → ∀ d, (a, d) ∈ s.link.devices → d.feeder = f

/-- What an operation on one feeder's breaker and hunt may have done: it writes the sequencer record and the hunt of that feeder and
gives notices of its scope, writes of the devices what a hunt or Permission Logic may, and asserts the close drive only where no
TAG_NO_CLOSE cause stands. -/
structure Touches (f : Feeder) (s t : State) : Prop where
  rest : t = { s with
    backup := t.backup, seq := t.seq, hunts := t.hunts
    link := { s.link with devices := t.link.devices }
    att := { s.att with notices := t.att.notices, line := t.att.line } }
  seqOther : ∀ g, g ≠ f → t.seq.get g = s.seq.get g
  huntOther : ∀ g, g ≠ f → t.hunts.get g = s.hunts.get g
  close : (t.seq.get f).closeDrive = true → (s.seq.get f).closeDrive = true ∨ (s.causes f).tagNoClose = false
  plain : t.link.devices.plain = s.link.devices.plain
  foreign : s.headsHome f → t.link.devices.foreign f = s.link.devices.foreign f
  notices : otherNotices f t.att.notices = otherNotices f s.att.notices

namespace Touches

theorem refl (f : Feeder) (s : State) : Touches f s s :=
  ⟨rfl, fun _ _ => rfl, fun _ _ => rfl, .inl, rfl, fun _ => rfl, rfl⟩

section
variable {f : Feeder} {s t : State} (h : Touches f s t)
include h

theorem pending : t.pending = s.pending := (congrArg State.pending h.rest :)
theorem contacts : t.contacts = s.contacts := (congrArg State.contacts h.rest :)
theorem sample : t.sample = s.sample := (congrArg State.sample h.rest :)
theorem engine : t.engine = s.engine := (congrArg State.engine h.rest :)
theorem store : t.store = s.store := (congrArg State.store h.rest :)
theorem tags : t.tags = s.tags := (congrArg State.tags h.rest :)
theorem cal : t.cal = s.cal := (congrArg State.cal h.rest :)
theorem inputs : t.inputs = s.inputs := (congrArg State.inputs h.rest :)
theorem latch : t.latch = s.latch := (congrArg State.latch h.rest :)
theorem cond : t.cond = s.cond := (congrArg State.cond h.rest :)
theorem sections : t.sections = s.sections := (congrArg State.sections h.rest :)
theorem port : t.port = s.port := (congrArg State.port h.rest :)

theorem causes (g : Feeder) : t.causes g = s.causes g := by rw [State.causes, State.causes, h.cond]

theorem headsHome (hs : s.headsHome f) : t.headsHome f := by
  intro a ha d hd
  obtain ⟨e, he, hfeeder⟩ := mem_of_plain_eq h.plain hd
  rw [h.sections] at ha
  rw [hfeeder]
  exact hs a ha e he

end

theorem trans {f : Feeder} {s t u : State} (h : Touches f s t) (k : Touches f t u) : Touches f s u where
  rest := by
    have ht := congrArg (fun x : State => ({ x with
      backup := u.backup, seq := u.seq, hunts := u.hunts
      link := { x.link with devices := u.link.devices }
      att := { x.att with notices := u.att.notices, line := u.att.line } } : State)) h.rest
    exact k.rest.trans ht
  seqOther g hg := (k.seqOther g hg).trans (h.seqOther g hg)
  huntOther g hg := (k.huntOther g hg).trans (h.huntOther g hg)
  close hu := (k.close hu).elim h.close fun hc => .inr (h.causes f ▸ hc)
  plain := k.plain.trans h.plain
  foreign hs := (k.foreign (h.headsHome hs)).trans (h.foreign hs)
  notices := k.notices.trans h.notices

section
variable {f : Feeder} {s t : State} (h : Touches f s t)
include h

/-! ## Writes -/

theorem ite {c : Prop} [Decidable c] {u : State} (hu : Touches f s u) : Touches f s (if c then t else u) := by
  split
  · exact h
  · exact hu

theorem putSeq (r : Seq) (hr : r.closeDrive = true → (t.seq.get f).closeDrive = true ∨ (t.causes f).tagNoClose = false) :
    Touches f s (t.putSeq f r) :=
  h.trans ⟨rfl, fun _ hg => Four.get_set_other _ _ hg, fun _ _ => rfl, by simpa using hr, rfl, fun _ => rfl, rfl⟩

/-- A change of the sequencer record that asserts no close drive. -/
theorem modSeq {g : Seq → Seq} (hg : ∀ r, (g r).closeDrive = true → r.closeDrive = true := by exact fun _ hr => hr) :
    Touches f s (t.modSeq f g) :=
  h.putSeq _ fun hr => .inl (hg _ hr)

theorem putHunt (x : Option Hunt) : Touches f s (t.putHunt f x) :=
  h.trans ⟨rfl, fun _ _ => rfl, fun _ hg => Four.get_set_other _ _ hg, .inl, rfl, fun _ => rfl, rfl⟩

theorem putDevices (g : Nat → Device → Device) (hp : ∀ a d, (g a d).plain = d.plain)
    (hg : ∀ a d, d.feeder ≠ f → ¬ headsSome (t.sections.get f) a → g a d = d) :
    Touches f s (t.putDevices (t.link.devices.mapAll g)) :=
  h.trans ⟨rfl, fun _ _ => rfl, fun _ _ => rfl, .inl, Table.plain_mapAll hp,
    fun hs => Table.foreign_mapAll hp fun a d had hd => hg a d hd fun ha => hd (hs a ha d had), rfl⟩

theorem give (d : Detail) : Touches f s (t.give (.feeder f) d) := by
  refine h.trans ⟨?_, fun _ _ => rfl, fun _ _ => rfl, .inl, rfl, fun _ => rfl, ?_⟩
  · unfold State.give Attention.give
    split <;> rfl
  · rw [State.give_att]
    unfold Attention.give
    split
    · rfl
    · exact otherNotices_enterNotice f d t.att.notices

/-! ## The Sequencer -/

theorem lockout (c : LockoutCause) (e : Option Element) : Touches f s (t.lockout f c e) := (h.modSeq).give _

theorem releaseClose : Touches f s (t.modSeq f Seq.releaseClose) := h.modSeq (by exact fun _ => nofun)

theorem releaseTrip : Touches f s (t.modSeq f Seq.releaseTrip) := h.modSeq

theorem leaveHunt : Touches f s (t.leaveHunt f) := by
  unfold State.leaveHunt
  split
  · exact h.modSeq
  · dsimp only
    split
    · exact h.releaseClose.modSeq
    · exact h.releaseClose.lockout _ _

theorem breakerFails (o : TripOrigin) : Touches f s (t.breakerFails f o) := (h.modSeq).give _

theorem huntOpen : Touches f s (t.huntOpen f).1 := by
  unfold State.huntOpen
  dsimp only
  split
  · exact h
  · split
    · dsimp only
      exact h.modSeq (by exact fun _ => nofun)
    · dsimp only
      exact h.modSeq (by exact fun r hr => absurd ((Kept.assertTrip_closeDrive r).symm.trans hr) (by decide))

theorem huntClose (x : HuntService) : Touches f s (t.huntClose f x).1 := by
  unfold State.huntClose
  dsimp only
  split
  · split
    · exact h
    · next hc =>
      split
      · exact h.putSeq _ fun _ => .inr (Causes.tagNoClose_of_first _ _ rfl hc)
      · exact h
  · exact h

/-! ## The Hunt Unit -/

theorem finishHunt (x : Hunt) (p : HuntPhase) (d : Option HuntDetail) : Touches f s (t.finishHunt f x p d) := by
  refine (h.putDevices _ (fun a d => ?_) fun a d hd _ => ?_).putHunt _
  · split
    · exact Device.plain_returned _ d
    · rfl
  · rw [if_neg]
    simp [Device.owned, hd]

theorem closeHunt (p : HuntPhase) (d : Option HuntDetail) : Touches f s (t.closeHunt f p d) := by
  unfold State.closeHunt
  split
  · exact (h.finishHunt _ _ _).give _
  · exact h

theorem endHunt (p : HuntPhase) (d : Option HuntDetail) : Touches f s (t.endHunt f p d) := (h.closeHunt p d).leaveHunt

theorem askRestoreClose (x : Hunt) : Touches f s (t.askRestoreClose f x) := by
  unfold State.askRestoreClose
  split
  · exact h.endHunt _ _
  · have hc := h.huntClose .restoreClosing
    split <;> next e =>
      rw [e] at hc
      first | exact hc.putHunt _ | exact hc.endHunt _ _ | exact hc

theorem awaitRestore (x : Hunt) : Touches f s (t.awaitRestore f x) := by
  unfold State.awaitRestore
  dsimp only
  split
  · exact (h.putHunt _).askRestoreClose x
  · exact h.putHunt _

theorem beginRestore (x : Hunt) : Touches f s (t.beginRestore f x) := by
  unfold State.beginRestore
  split
  · split
    · exact h.endHunt _ _
    · next n _ a ha =>
      refine (h.putDevices _ (fun b d => ?_) fun b d hd hb => ?_).awaitRestore _
      · split
        · rfl
        · split <;> rfl
      · rw [if_neg (fun e : b = a => hb (e ▸ headsSome_of_nearestHead ha)), if_neg]
        simp [Device.owned, hd]
  · refine (h.putDevices _ (fun b d => ?_) fun b d hd _ => ?_).awaitRestore _
    · split <;> rfl
    · rw [if_neg]
      simp [Device.owned, hd]

theorem isolated (x : Hunt) : Touches f s (t.isolated f x) := by
  unfold State.isolated
  split
  · exact h.endHunt _ _
  · split
    · exact h.endHunt _ _
    · have hc := h.huntClose .testClosing
      split <;> next e =>
        rw [e] at hc
        first | exact hc.putHunt _ | exact hc.endHunt _ _ | exact hc

theorem setNamed {toOpen toClose : List Nat} (hopen : ∀ a ∈ toOpen, headsSome (t.sections.get f) a)
    (hclose : ∀ a ∈ toClose, headsSome (t.sections.get f) a) :
    Touches f s (t.putDevices (Machine.setNamed toOpen toClose t.link.devices)) := by
  refine h.putDevices _ (fun a d => ?_) fun a d _ ha => ?_
  · split
    · rfl
    · split <;> rfl
  · rw [if_neg (fun hc => ha (hclose a (by simpa using hc))), if_neg (fun hc => ha (hopen a (by simpa using hc)))]

theorem isolate (x : Hunt) (i n : Nat) : Touches f s (t.isolate f x i n) := by
  have hset := h.setNamed (fun a => headsSome_of_mem_namedOpen (x := (t.cond.get f).exclusion) (n := n))
    (fun a => headsSome_of_mem_namedClosed (n := n))
  unfold State.isolate
  dsimp only
  split
  · exact (hset.putHunt _).endHunt _ _
  · split
    · exact (hset.putHunt _).isolated _
    · exact hset.putHunt _

theorem takeStep (x : Hunt) : Touches f s (t.takeStep f x) := by
  unfold State.takeStep
  dsimp only
  split
  · split
    · exact h.isolate _ _ _
    · exact h.putHunt _
  · exact (h.putHunt _).beginRestore _

theorem openReport : Touches f s (t.openReport f) := by
  unfold State.openReport
  split
  · exact h
  · split <;> first | exact h.takeStep _ | exact h.beginRestore _ | exact h.endHunt _ _ | exact h

theorem closedReport : Touches f s (t.closedReport f) := by
  unfold State.closedReport
  split
  · exact h
  · split <;> first | exact h.putHunt _ | exact h.endHunt _ _ | exact h

theorem testTrip : Touches f s (t.testTrip f) := by
  unfold State.testTrip
  split
  · exact h
  · split
    · exact h.putHunt _
    · exact h

theorem askOpen : Touches f s (t.askOpen f) := by
  have ho := h.huntOpen
  unfold State.askOpen
  split <;> next e =>
    rw [e] at ho
    first | exact ho.openReport | exact ho

theorem huntTrip (x : HuntService) : Touches f s (t.huntTrip f x) := by
  have ho := h.huntOpen
  unfold State.huntTrip
  dsimp only
  split
  · exact h
  · split
    · exact h
    · have htest : Touches f s (if x = .testClosing ∨ x = .testClosed then (t.huntOpen f).1.testTrip f else (t.huntOpen f).1) := by
        split
        · exact ho.testTrip
        · exact ho
      split
      · exact htest.openReport
      · exact htest

theorem holdExpires : Touches f s (t.holdExpires f) := by
  unfold State.holdExpires
  split
  · exact h
  · split
    · exact (h.putHunt _).askOpen
    · exact h

theorem judgeNeeded : Touches f s (t.judgeNeeded f) := by
  unfold State.judgeNeeded
  split
  · exact h
  · split
    · split <;> first | exact h.isolated _ | exact h.askRestoreClose _ | exact h
    · exact h

theorem huntCause (c : Cause) : Touches f s (t.huntCause f c) := by
  unfold State.huntCause
  split
  · exact h
  · split <;> first | exact h.endHunt _ _ | exact h.huntOpen.endHunt _ _ | exact h

theorem huntExclusion : Touches f s (t.huntExclusion f) := by
  unfold State.huntExclusion
  split
  · exact h
  · dsimp only
    split
    · exact h.putHunt _
    · exact h.takeStep _
    · exact (h.putHunt _).askOpen.ite (h.putHunt _)
    · exact (h.putHunt _).askOpen.ite (h.putHunt _)
    all_goals exact h

theorem huntDevice (a : Nat) (w m : Option DeviceTrouble) : Touches f s (t.huntDevice f a w m) := by
  unfold State.huntDevice
  dsimp only
  split
  · exact h
  · split
    · split
      · exact h.huntOpen.endHunt _ _
      · exact h
    · split
      · split
        · exact h.endHunt _ _
        · exact h.judgeNeeded
      · exact h

theorem startHuntOn (host : Bool) (l : Location) (ns : List Nat) : Touches f s (t.startHuntOn f host l ns) :=
  ((h.putHunt _).modSeq).takeStep _

theorem offerHunt : Touches f s (t.offerHunt f) := by
  unfold State.offerHunt
  dsimp only
  split
  · exact h.startHuntOn _ _ _
  · exact h

/-! ## Trips -/

/-- A lockout that ends a trip, with its offer to the Hunt Unit. -/
theorem lockoutOffered (c : LockoutCause) (e : Option Element) (b : Bool) :
    Touches f s (if b = true then (t.lockout f c e).offerHunt f else t.lockout f c e) := by
  split
  · exact (h.lockout _ _).offerHunt
  · exact h.lockout _ _

theorem endTrip (o : TripOrigin) (m : Bool) : Touches f s (t.endTrip f o m) := by
  unfold State.endTrip
  dsimp only
  split
  · exact h.releaseTrip.lockoutOffered _ _ _
  · exact h.releaseTrip.lockoutOffered _ _ _
  · split
    · exact h.releaseTrip.lockoutOffered _ _ _
    · split
      · split
        · exact h.releaseTrip.lockoutOffered _ _ _
        · exact h.releaseTrip.modSeq
      · exact h.releaseTrip.lockoutOffered _ _ _

theorem beginTrip (o : TripOrigin) (m : Bool) (e : Option Element) : Touches f s (t.beginTrip f o m e) := by
  have htrip : Touches f s (t.modSeq f (fun r => { r.assertTrip.stopTimers with
      state := .tripping o m, tripElement := e, tripFail := some (t.tripFailTime f), huntTest := false })) :=
    h.modSeq (by exact fun r hr => absurd ((Kept.assertTrip_closeDrive r).symm.trans hr) (by decide))
  unfold State.beginTrip
  dsimp only
  split
  · exact htrip.endTrip o m
  · exact htrip

theorem tripRequest (e : Element) : Touches f s (t.tripRequest f e) := by
  unfold State.tripRequest
  dsimp only
  split
  · exact h.beginTrip _ _ _
  · exact h.beginTrip _ _ _
  · exact h.beginTrip _ _ _
  · split
    · exact h
    · exact h.beginTrip _ _ _
  · split
    · exact h
    · exact h.beginTrip _ _ _
  · exact h
  · exact h
  · exact h.huntTrip _

/-! ## Permission Logic -/

theorem setWish (w : Bool) : Touches f s (t.setWish f w) := by
  refine h.putDevices _ (fun a d => ?_) fun a d hd _ => if_neg hd
  split
  · exact Device.plain_wished w d
  · rfl

theorem sequenceCause : Touches f s (t.sequenceCause f) := by
  unfold State.sequenceCause
  split
  · exact h.lockout _ _
  · exact h

theorem handOn (old new : Condition) : Touches f s (t.handOn f old new) :=
  State.handOn_induct (fun _ _ _ h => h.give _) (fun _ _ h => h.setWish _) (fun _ h => h.sequenceCause)
    (fun _ _ h => h.huntCause _) (fun _ h => h.huntExclusion) h

/-! ## Position changes, expiries and the host's commands -/

theorem alarm (d : AlarmDetail) : Touches f s (t.alarm f d) := h.give _

theorem unaskedOpen : Touches f s (t.unaskedOpen f) := (((h.closeHunt _ _).releaseClose).lockout _ _).alarm _

theorem restClosed : Touches f s (t.modSeq f Seq.restClosed) := h.modSeq

theorem unaskedClose : Touches f s (t.unaskedClose f) := ((h.closeHunt _ _).restClosed).alarm _

theorem huntSeenOpen (x : HuntService) : Touches f s (t.huntSeenOpen f x) := by
  unfold State.huntSeenOpen
  split
  · exact (h.modSeq).openReport
  all_goals exact h.unaskedOpen

theorem huntSeenClosed (x : HuntService) : Touches f s (t.huntSeenClosed f x) := by
  have hrelease : ∀ y : HuntService, Touches f s (t.modSeq f (fun r => { r.releaseClose with state := .hunt y })) :=
    fun y => h.modSeq (by exact fun _ => nofun)
  unfold State.huntSeenClosed
  split
  · exact (hrelease _).closedReport
  · exact (hrelease _).closedReport
  · exact h
  all_goals exact h.unaskedClose

theorem seenOpen : Touches f s (t.seenOpen f) := by
  unfold State.seenOpen
  split
  · exact h.endTrip _ _
  · exact h.releaseTrip.lockout _ _
  · exact (h.lockout _ _).alarm _
  · exact (h.lockout _ _).alarm _
  · exact h
  · exact h
  · exact h
  · exact h.huntSeenOpen _

theorem closeMade (k : CloseKind) : Touches f s (t.closeMade f k) := by
  unfold State.closeMade
  split
  · exact h.modSeq (by exact fun _ => nofun)
  · exact h.modSeq (by exact fun _ => nofun)

theorem seenClosed : Touches f s (t.seenClosed f) := by
  unfold State.seenClosed
  split
  · exact h.closeMade _
  · exact (h.modSeq).alarm _
  · exact (h.modSeq).alarm _
  · exact h
  · exact h
  · exact h
  · exact h
  · exact h.huntSeenClosed _

theorem positionChange (x : Position) : Touches f s (t.positionChange f x) := by
  have hpos : Touches f s (t.modSeq f (fun r => { r with position := x })) := h.modSeq
  unfold State.positionChange
  dsimp only
  split
  · exact hpos.seenOpen
  · exact hpos.seenClosed
  · exact hpos
  · exact hpos.alarm _

theorem tripFails : Touches f s (t.tripFails f) := by
  unfold State.tripFails
  split
  · exact h.breakerFails _
  · exact (h.closeHunt _ _).breakerFails _
  all_goals exact h

theorem closeLost : Touches f s (t.closeLost f) := (h.releaseClose.lockout _ _).alarm _

theorem closeFails : Touches f s (t.closeFails f) := by
  unfold State.closeFails
  split
  · exact h.closeLost
  · exact (h.closeHunt _ _).closeLost
  · exact (h.closeHunt _ _).closeLost
  all_goals exact h

theorem deadEnds : Touches f s (t.deadEnds f) := by
  unfold State.deadEnds
  dsimp only
  split
  · exact h.lockout _ _
  · next hc =>
    rw [not_or, Bool.not_eq_true] at hc
    split
    · exact h.putSeq _ fun _ => .inr (Causes.tagNoClose_of_any _ _ rfl hc.1)
    · exact (h.lockout _ _).alarm _

theorem openFromHunt : Touches f s (t.openFromHunt f) := by
  unfold State.openFromHunt
  dsimp only
  split
  · exact h.modSeq
  · split
    · exact h.releaseClose.lockout _ _
    · exact h.beginTrip _ _ _

theorem hostOpen : Touches f s (t.hostOpen f) := by
  unfold State.hostOpen
  dsimp only
  split
  · exact h.beginTrip _ _ _
  · exact h.beginTrip _ _ _
  · exact h.beginTrip _ _ _
  · exact h.modSeq
  · exact h.lockout _ _
  · split
    · exact h.modSeq
    · exact h.beginTrip _ _ _
  · exact (h.closeHunt _ _).openFromHunt
  · exact h

theorem clearFail : Touches f s (t.clearFail f) := by
  unfold State.clearFail
  dsimp only
  split
  · exact h.releaseTrip.restClosed
  · exact h.releaseTrip.lockout _ _

end

end Touches

end Sys2Proof.Machine

/-! A hunt is in a non-final state exactly while its feeder is in HUNT (03 R64): what the operations on a feeder leave of that bond. -/

namespace Sys2Proof.Machine

/-- The bond of a feeder's hunt and its sequencer state (03 R64). -/
def State.bonded (s : State) (f : Feeder) : Prop := s.huntRuns f = (s.seq.get f).state.hunting

theorem State.huntsSound_iff (s : State) : s.huntsSound = true ↔ ∀ f, s.bonded f := by
  simp [State.huntsSound, State.bonded, Ix4.mem_all]

theorem HuntPhase.final_of_testing {p : HuntPhase} (h : p.testing = true) : p.final = false := by
  cases p <;> first | rfl | cases h

theorem SeqState.hunting_of_failed {x : SeqState} (h : x.failed = true) : x.hunting = false := by
  cases x <;> first | rfl | cases h

/-- A feeder is in HUNT. -/
def State.inHunt (s : State) (f : Feeder) : Prop := (s.seq.get f).state.hunting = true

theorem State.bonded_in {s : State} {f : Feeder} (hr : s.huntRuns f = true) (hs : s.inHunt f) : s.bonded f := hr.trans hs.symm

theorem State.bonded_out {s : State} {f : Feeder} (hr : s.huntRuns f = false) (hs : (s.seq.get f).state.hunting = false) :
    s.bonded f := hr.trans hs.symm

theorem State.bonded.inHunt {s : State} {f : Feeder} (hb : s.bonded f) (hr : s.huntRuns f = true) : s.inHunt f := hb.symm.trans hr

theorem State.bonded.notRunning {s : State} {f : Feeder} (hb : s.bonded f) (hs : (s.seq.get f).state.hunting = false) :
    s.huntRuns f = false := hb.trans hs

/-- The bond looks at the record of the hunt and at the sequencer state alone. -/
theorem State.bonded_congr {s t : State} {f : Feeder} (hh : t.hunts.get f = s.hunts.get f)
    (hs : (t.seq.get f).state.hunting = (s.seq.get f).state.hunting) (hb : s.bonded f) : t.bonded f := by
  unfold State.bonded State.huntRuns at *
  rw [hh, hs, hb]

@[simp] theorem State.huntRuns_putSeq (s : State) (f g : Feeder) (r : Seq) : (s.putSeq g r).huntRuns f = s.huntRuns f := rfl
@[simp] theorem State.huntRuns_modSeq (s : State) (f g : Feeder) (k : Seq → Seq) : (s.modSeq g k).huntRuns f = s.huntRuns f := rfl
@[simp] theorem State.huntRuns_putDevices (s : State) (f : Feeder) (t : Table Device) : (s.putDevices t).huntRuns f = s.huntRuns f := rfl
@[simp] theorem State.huntRuns_give (s : State) (f : Feeder) (x : Scope) (d : Detail) : (s.give x d).huntRuns f = s.huntRuns f := rfl

theorem State.huntRuns_of_get {s : State} {f : Feeder} {x : Hunt} (hx : s.hunts.get f = some x) : s.huntRuns f = !x.phase.final := by
  unfold State.huntRuns
  rw [hx]

theorem State.huntRuns_of_none {s : State} {f : Feeder} (hx : s.hunts.get f = none) : s.huntRuns f = false := by
  unfold State.huntRuns
  rw [hx]

@[simp] theorem State.huntRuns_putHunt_some (s : State) (f : Feeder) (x : Hunt) : (s.putHunt f (some x)).huntRuns f = !x.phase.final :=
  State.huntRuns_of_get (by simp)

@[simp] theorem State.huntRuns_putHunt_none (s : State) (f : Feeder) : (s.putHunt f none).huntRuns f = false :=
  State.huntRuns_of_none (by simp)

/-- A running hunt is written on a feeder in HUNT. -/
theorem State.bonded_putHunt {s : State} {f : Feeder} {x : Hunt} (hx : x.phase.final = false) (hs : s.inHunt f) :
    (s.putHunt f (some x)).bonded f := State.bonded_in (by simp [hx]) hs

@[simp] theorem State.modSeq_get (s : State) (f : Feeder) (k : Seq → Seq) : (s.modSeq f k).seq.get f = k (s.seq.get f) := by
  simp [State.modSeq]

theorem State.bonded_modSeq {s : State} {f : Feeder} {k : Seq → Seq}
    (hk : (k (s.seq.get f)).state.hunting = (s.seq.get f).state.hunting) (hb : s.bonded f) : (s.modSeq f k).bonded f :=
  State.bonded_congr (s := s) rfl (by simp [hk]) hb

/-- A feeder on which no hunt runs leaves HUNT, or stays out of it. -/
theorem State.bonded_modSeq_out {s : State} {f : Feeder} {k : Seq → Seq} (hk : (k (s.seq.get f)).state.hunting = false)
    (hr : s.huntRuns f = false) : (s.modSeq f k).bonded f := State.bonded_out hr (by simp [hk])

/-! ## The Sequencer -/

theorem State.bonded_lockout {s : State} {f : Feeder} (c : LockoutCause) (e : Option Element) (hr : s.huntRuns f = false) :
    (s.lockout f c e).bonded f :=
  State.bonded_out hr (by simp [State.lockout, SeqState.hunting])

theorem State.bonded_leaveHunt {s : State} {f : Feeder} (hr : s.huntRuns f = false) : (s.leaveHunt f).bonded f := by
  unfold State.leaveHunt
  split
  · exact State.bonded_modSeq_out rfl hr
  · dsimp only
    split
    · exact State.bonded_modSeq_out rfl hr
    · exact State.bonded_lockout _ _ hr

theorem State.bonded_breakerFails {s : State} {f : Feeder} (o : TripOrigin) (hr : s.huntRuns f = false) :
    (s.breakerFails f o).bonded f := State.bonded_out hr (by simp [State.breakerFails, SeqState.hunting])

@[simp] theorem State.huntOpen_hunts (s : State) (f : Feeder) : (s.huntOpen f).1.hunts = s.hunts := by
  unfold State.huntOpen
  dsimp only
  split
  · rfl
  · split <;> rfl

theorem State.inHunt_huntOpen {s : State} {f : Feeder} (hs : s.inHunt f) : (s.huntOpen f).1.inHunt f := by
  unfold State.inHunt State.huntOpen at *
  dsimp only
  split
  · exact hs
  · split <;> simp [SeqState.hunting]

theorem State.bonded_huntOpen {s : State} {f : Feeder} (hs : s.inHunt f) (hb : s.bonded f) : (s.huntOpen f).1.bonded f :=
  State.bonded_congr (by simp) ((State.inHunt_huntOpen hs).trans hs.symm) hb

theorem State.huntClose_issued {s t : State} {f : Feeder} {x : HuntService} (e : s.huntClose f x = (t, .issued)) : t.inHunt f := by
  unfold State.huntClose at e
  dsimp only at e
  split at e
  · split at e
    · cases e
    · split at e <;> cases e
      simp [State.inHunt, SeqState.hunting]
  · cases e

/-- A close that is not issued changes nothing (03 R65). -/
theorem State.huntClose_refused {s t : State} {f : Feeder} {x : HuntService} {a : CloseAnswer} (e : s.huntClose f x = (t, a))
    (ha : a ≠ .issued) : t = s := by
  unfold State.huntClose at e
  dsimp only at e
  split at e
  · split at e
    · cases e; rfl
    · split at e <;> cases e
      · exact absurd rfl ha
      · rfl
  · cases e; rfl

/-! ## The Hunt Unit -/

@[simp] theorem State.closeHunt_seq (s : State) (f : Feeder) (p : HuntPhase) (d : Option HuntDetail) :
    (s.closeHunt f p d).seq = s.seq := by
  unfold State.closeHunt
  split <;> rfl

theorem State.huntRuns_closeHunt {s : State} {f : Feeder} {p : HuntPhase} (d : Option HuntDetail) (hp : p.final = true) :
    (s.closeHunt f p d).huntRuns f = false := by
  unfold State.closeHunt
  split
  · simp [State.finishHunt, Hunt.close, hp]
  · next hx => exact State.huntRuns_of_none hx

/-- The end of a hunt leaves the bond, whatever went before. -/
theorem State.bonded_endHunt {s : State} {f : Feeder} {p : HuntPhase} (d : Option HuntDetail) (hp : p.final = true) :
    (s.endHunt f p d).bonded f := State.bonded_leaveHunt (State.huntRuns_closeHunt d hp)

theorem Hunt.final_goal (x : Hunt) : x.goal.final = true := by
  unfold Hunt.goal
  split <;> rfl

theorem State.bonded_askRestoreClose {s : State} {f : Feeder} (x : Hunt) (hb : s.bonded f) : (s.askRestoreClose f x).bonded f := by
  unfold State.askRestoreClose
  split
  · exact State.bonded_endHunt _ x.final_goal
  · split
    · next e => exact State.bonded_putHunt rfl (State.huntClose_issued e)
    · exact State.bonded_endHunt _ x.final_goal
    · exact State.bonded_endHunt _ rfl
    · next e => exact State.huntClose_refused e (by decide) ▸ hb

theorem State.bonded_awaitRestore {s : State} {f : Feeder} {x : Hunt} (hx : x.phase.final = false) (hs : s.inHunt f) :
    (s.awaitRestore f x).bonded f := by
  unfold State.awaitRestore
  dsimp only
  split
  · exact State.bonded_askRestoreClose x (State.bonded_putHunt hx hs)
  · exact State.bonded_putHunt hx hs

theorem State.bonded_beginRestore {s : State} {f : Feeder} (x : Hunt) (hs : s.inHunt f) : (s.beginRestore f x).bonded f := by
  unfold State.beginRestore
  split
  · split
    · exact State.bonded_endHunt _ rfl
    · exact State.bonded_awaitRestore rfl hs
  · exact State.bonded_awaitRestore rfl hs

theorem State.bonded_isolated {s : State} {f : Feeder} (x : Hunt) (hb : s.bonded f) : (s.isolated f x).bonded f := by
  unfold State.isolated
  split
  · exact State.bonded_endHunt _ rfl
  · split
    · exact State.bonded_endHunt _ rfl
    · split
      · next e => exact State.bonded_putHunt rfl (State.huntClose_issued e)
      · exact State.bonded_endHunt _ rfl
      · exact State.bonded_endHunt _ rfl
      · next e => exact State.huntClose_refused e (by decide) ▸ hb

theorem State.bonded_isolate {s : State} {f : Feeder} (x : Hunt) (i n : Nat) (hs : s.inHunt f) : (s.isolate f x i n).bonded f := by
  have hput : ∀ y : Hunt, y.phase.final = false → ((s.putDevices (setNamed (namedOpen (s.sections.get f) (s.cond.get f).exclusion n)
      (namedClosed (s.sections.get f) n) s.link.devices)).putHunt f (some y)).bonded f := fun y hy => State.bonded_putHunt hy hs
  unfold State.isolate
  dsimp only
  split
  · exact State.bonded_endHunt _ rfl
  · split
    · exact State.bonded_isolated _ (hput _ rfl)
    · exact hput _ rfl

theorem State.bonded_takeStep {s : State} {f : Feeder} {x : Hunt} (hx : x.phase.final = false) (hs : s.inHunt f) :
    (s.takeStep f x).bonded f := by
  unfold State.takeStep
  dsimp only
  split
  · split
    · exact State.bonded_isolate _ _ _ hs
    · exact State.bonded_putHunt hx hs
  · exact State.bonded_beginRestore _ hs

section
variable {s : State} {f : Feeder} (hb : s.bonded f)
include hb

/-- A feeder whose hunt is in a non-final phase is in HUNT. -/
theorem State.bonded.inHunt_of_get {x : Hunt} (hx : s.hunts.get f = some x) (hp : x.phase.final = false) : s.inHunt f :=
  hb.inHunt ((State.huntRuns_of_get hx).trans (by simp [hp]))

theorem State.bonded.openReport : (s.openReport f).bonded f := by
  unfold State.openReport
  split
  · exact hb
  · next x hx =>
    split
    · next hp => exact State.bonded_takeStep (by rw [hp]; rfl) (hb.inHunt_of_get hx (by rw [hp]; rfl))
    · next hp => exact State.bonded_beginRestore _ (hb.inHunt_of_get hx (by rw [hp]; rfl))
    · exact State.bonded_endHunt _ rfl
    all_goals exact hb

theorem State.bonded.closedReport : (s.closedReport f).bonded f := by
  unfold State.closedReport
  split
  · exact hb
  · next x hx =>
    split
    · next hp => exact State.bonded_putHunt rfl (hb.inHunt_of_get hx (by rw [hp]; rfl))
    · exact State.bonded_endHunt _ x.final_goal
    all_goals exact hb

theorem State.bonded.testTrip : (s.testTrip f).bonded f := by
  unfold State.testTrip
  split
  · exact hb
  · next x hx =>
    split
    · next ht => exact State.bonded_putHunt rfl (hb.inHunt_of_get hx (HuntPhase.final_of_testing ht))
    · exact hb

theorem State.bonded.askOpen (hs : s.inHunt f) : (s.askOpen f).bonded f := by
  have ho := State.bonded_huntOpen hs hb
  unfold State.askOpen
  split <;> next e =>
    rw [e] at ho
    first | exact ho.openReport | exact ho

theorem State.bonded.huntTrip (hs : s.inHunt f) (x : HuntService) : (s.huntTrip f x).bonded f := by
  have ho := State.bonded_huntOpen hs hb
  unfold State.huntTrip
  dsimp only
  split
  · exact hb
  · split
    · exact hb
    · have htest : (if x = .testClosing ∨ x = .testClosed then (s.huntOpen f).1.testTrip f else (s.huntOpen f).1).bonded f := by
        split
        · exact ho.testTrip
        · exact ho
      split
      · exact htest.openReport
      · exact htest

theorem State.bonded.holdExpires : (s.holdExpires f).bonded f := by
  unfold State.holdExpires
  split
  · exact hb
  · next x hx =>
    split
    · next hp =>
      have hs := hb.inHunt_of_get hx (by rw [hp.1]; rfl)
      exact (State.bonded_putHunt rfl hs).askOpen hs
    · exact hb

theorem State.bonded.judgeNeeded : (s.judgeNeeded f).bonded f := by
  unfold State.judgeNeeded
  split
  · exact hb
  · split
    · split
      · exact State.bonded_isolated _ hb
      · exact State.bonded_askRestoreClose _ hb
      all_goals exact hb
    · exact hb

theorem State.bonded.huntCause (c : Cause) : (s.huntCause f c).bonded f := by
  unfold State.huntCause
  split
  · exact hb
  · split <;> first | exact State.bonded_endHunt _ rfl | exact hb

theorem State.bonded.huntExclusion : (s.huntExclusion f).bonded f := by
  unfold State.huntExclusion
  split
  · exact hb
  · next x hx =>
    have hs : x.phase.final = false → s.inHunt f := hb.inHunt_of_get hx
    dsimp only
    split
    · next hp => exact State.bonded_putHunt (by dsimp only; rw [hp]; rfl) (hs (by rw [hp]; rfl))
    · next hp => exact State.bonded_takeStep (by dsimp only; rw [hp]; rfl) (hs (by rw [hp]; rfl))
    · next hp =>
      have hs := hs (by rw [hp]; rfl)
      exact iteInduction (motive := fun u : State => u.bonded f) (fun _ => (State.bonded_putHunt rfl hs).askOpen hs)
        fun _ => State.bonded_putHunt (by exact (congrArg HuntPhase.final hp).trans rfl) hs
    · next hp =>
      have hs := hs (by rw [hp]; rfl)
      exact iteInduction (motive := fun u : State => u.bonded f) (fun _ => (State.bonded_putHunt rfl hs).askOpen hs)
        fun _ => State.bonded_putHunt (by exact (congrArg HuntPhase.final hp).trans rfl) hs
    all_goals exact hb

theorem State.bonded.huntDevice (a : Nat) (w m : Option DeviceTrouble) : (s.huntDevice f a w m).bonded f := by
  unfold State.huntDevice
  dsimp only
  split
  · exact hb
  · split
    · split
      · exact State.bonded_endHunt _ rfl
      · exact hb
    · split
      · split
        · exact State.bonded_endHunt _ rfl
        · exact hb.judgeNeeded
      · exact hb

omit hb in
theorem State.bonded_startHuntOn (host : Bool) (l : Location) (ns : List Nat) : (s.startHuntOn f host l ns).bonded f :=
  State.bonded_takeStep rfl (by simp [State.inHunt, SeqState.hunting])

theorem State.bonded.offerHunt : (s.offerHunt f).bonded f := by
  unfold State.offerHunt
  dsimp only
  split
  · exact State.bonded_startHuntOn _ _ _
  · exact hb

/-! ## Trips -/

omit hb in
theorem State.bonded_endTrip (o : TripOrigin) (m : Bool) (hr : s.huntRuns f = false) : (s.endTrip f o m).bonded f := by
  have out : ∀ c e b, (if b = true then ((s.modSeq f Seq.releaseTrip).lockout f c e).offerHunt f
      else (s.modSeq f Seq.releaseTrip).lockout f c e).bonded f := by
    intro c e b
    have hl : ((s.modSeq f Seq.releaseTrip).lockout f c e).bonded f := State.bonded_lockout c e hr
    split
    · exact hl.offerHunt
    · exact hl
  unfold State.endTrip
  dsimp only
  split
  · exact out _ _ _
  · exact out _ _ _
  · split
    · exact out _ _ _
    · split
      · split
        · exact out _ _ _
        · exact State.bonded_modSeq_out rfl hr
      · exact out _ _ _

omit hb in
theorem State.bonded_beginTrip (o : TripOrigin) (m : Bool) (e : Option Element) (hr : s.huntRuns f = false) :
    (s.beginTrip f o m e).bonded f := by
  unfold State.beginTrip
  dsimp only
  split
  · exact State.bonded_endTrip o m hr
  · exact State.bonded_modSeq_out rfl hr

/-- Outside HUNT no hunt runs. -/
theorem State.bonded.out {x : SeqState} (hx : (s.seq.get f).state = x) (hn : x.hunting = false) : s.huntRuns f = false :=
  hb.notRunning (by rw [hx]; exact hn)

theorem State.bonded.tripRequest (e : Element) : (s.tripRequest f e).bonded f := by
  unfold State.tripRequest
  dsimp only
  split
  · next hx => exact State.bonded_beginTrip _ _ _ (hb.out hx rfl)
  · next hx => exact State.bonded_beginTrip _ _ _ (hb.out hx rfl)
  · next hx => exact State.bonded_beginTrip _ _ _ (hb.out hx rfl)
  · next hx =>
    split
    · exact hb
    · exact State.bonded_beginTrip _ _ _ (hb.out hx rfl)
  · next hx =>
    split
    · exact hb
    · exact State.bonded_beginTrip _ _ _ (hb.out hx rfl)
  · exact hb
  · exact hb
  · next hx => exact hb.huntTrip (by rw [State.inHunt, hx]; rfl) _

/-! ## Permission Logic -/

theorem State.bonded.sequenceCause : (s.sequenceCause f).bonded f := by
  unfold State.sequenceCause
  split
  · next hx => exact State.bonded_lockout _ _ (hb.out hx rfl)
  · exact hb

theorem State.bonded.handOn (old new : Condition) : (s.handOn f old new).bonded f :=
  State.handOn_induct (P := fun u => u.bonded f) (fun _ _ _ h => h) (fun _ _ h => h) (fun _ h => h.sequenceCause)
    (fun _ _ h => h.huntCause _) (fun _ h => h.huntExclusion) hb

/-! ## Position changes, expiries and the host's commands -/

omit hb in
theorem State.bonded_unaskedOpen : (s.unaskedOpen f).bonded f :=
  State.bonded_lockout (s := (s.closeHunt f (.abandoned .position) _).modSeq f Seq.releaseClose) _ _
    (State.huntRuns_closeHunt _ rfl)

omit hb in
theorem State.bonded_unaskedClose : (s.unaskedClose f).bonded f :=
  State.bonded_modSeq_out (k := Seq.restClosed) rfl (State.huntRuns_closeHunt _ rfl)

theorem State.bonded.huntSeenOpen (hs : s.inHunt f) (x : HuntService) : (s.huntSeenOpen f x).bonded f := by
  unfold State.huntSeenOpen
  split
  · exact (State.bonded_modSeq (by exact hs.symm) hb).openReport
  all_goals exact State.bonded_unaskedOpen

theorem State.bonded.huntSeenClosed (hs : s.inHunt f) (x : HuntService) : (s.huntSeenClosed f x).bonded f := by
  unfold State.huntSeenClosed
  split
  · exact (State.bonded_modSeq (by exact hs.symm) hb).closedReport
  · exact (State.bonded_modSeq (by exact hs.symm) hb).closedReport
  · exact hb
  all_goals exact State.bonded_unaskedClose

theorem State.bonded.seenOpen : (s.seenOpen f).bonded f := by
  unfold State.seenOpen
  split
  · next hx => exact State.bonded_endTrip _ _ (hb.out hx rfl)
  · next hx => exact State.bonded_lockout (s := s.modSeq f Seq.releaseTrip) _ _ (hb.out hx rfl)
  · next hx => exact State.bonded_lockout _ _ (hb.out hx rfl)
  · next hx => exact State.bonded_lockout _ _ (hb.out hx rfl)
  · exact hb
  · exact hb
  · exact hb
  · next hx => exact hb.huntSeenOpen (by rw [State.inHunt, hx]; rfl) _

theorem State.bonded.seenClosed : (s.seenClosed f).bonded f := by
  unfold State.seenClosed
  split
  · next hx =>
    unfold State.closeMade
    split
    · exact State.bonded_modSeq_out rfl (hb.out hx rfl)
    · exact State.bonded_modSeq_out rfl (hb.out hx rfl)
  · next hx => exact State.bonded_modSeq_out (k := fun r => { r.restClosed with dead := none }) rfl (hb.out hx rfl)
  · next hx => exact State.bonded_modSeq_out (k := fun r => { r.restClosed with dead := none }) rfl (hb.out hx rfl)
  · exact hb
  · exact hb
  · exact hb
  · exact hb
  · next hx => exact hb.huntSeenClosed (by rw [State.inHunt, hx]; rfl) _

theorem State.bonded.positionChange (x : Position) : (s.positionChange f x).bonded f := by
  have hpos : (s.modSeq f (fun r => { r with position := x })).bonded f := State.bonded_modSeq rfl hb
  unfold State.positionChange
  dsimp only
  split
  · exact hpos.seenOpen
  · exact hpos.seenClosed
  · exact hpos
  · exact hpos

theorem State.bonded.tripFails : (s.tripFails f).bonded f := by
  unfold State.tripFails
  split
  · next hx => exact State.bonded_breakerFails _ (hb.out hx rfl)
  · exact State.bonded_breakerFails _ (State.huntRuns_closeHunt _ rfl)
  all_goals exact hb

omit hb in
theorem State.bonded_closeLost (hr : s.huntRuns f = false) : (s.closeLost f).bonded f :=
  State.bonded_lockout (s := s.modSeq f Seq.releaseClose) _ _ hr

theorem State.bonded.closeFails : (s.closeFails f).bonded f := by
  unfold State.closeFails
  split
  · next hx => exact State.bonded_closeLost (hb.out hx rfl)
  · exact State.bonded_closeLost (State.huntRuns_closeHunt _ rfl)
  · exact State.bonded_closeLost (State.huntRuns_closeHunt _ rfl)
  all_goals exact hb

theorem State.bonded.deadEnds (hx : (s.seq.get f).state = .deadTime) : (s.deadEnds f).bonded f := by
  have hr : s.huntRuns f = false := hb.out hx rfl
  unfold State.deadEnds
  dsimp only
  split
  · exact State.bonded_lockout _ _ hr
  · split
    · exact State.bonded_modSeq_out rfl hr
    · exact State.bonded_lockout _ _ hr

omit hb in
theorem State.bonded_openFromHunt (hr : s.huntRuns f = false) : (s.openFromHunt f).bonded f := by
  unfold State.openFromHunt
  dsimp only
  split
  · exact State.bonded_modSeq_out rfl hr
  · split
    · exact State.bonded_lockout (s := s.modSeq f Seq.releaseClose) _ _ hr
    · exact State.bonded_beginTrip _ _ _ hr

theorem State.bonded.hostOpen : (s.hostOpen f).bonded f := by
  unfold State.hostOpen
  dsimp only
  split
  · next hx => exact State.bonded_beginTrip _ _ _ (hb.out hx rfl)
  · next hx => exact State.bonded_beginTrip _ _ _ (hb.out hx rfl)
  · next hx => exact State.bonded_beginTrip _ _ _ (hb.out hx rfl)
  · next hx => exact State.bonded_modSeq_out rfl (hb.out hx rfl)
  · next hx => exact State.bonded_lockout _ _ (hb.out hx rfl)
  · next hx =>
    split
    · exact State.bonded_modSeq_out rfl (hb.out hx rfl)
    · exact State.bonded_beginTrip _ _ _ (hb.out hx rfl)
  · exact State.bonded_openFromHunt (State.huntRuns_closeHunt _ rfl)
  · exact hb

theorem State.bonded.clearFail (hx : (s.seq.get f).state.failed = true) : (s.clearFail f).bonded f := by
  have hr : s.huntRuns f = false := hb.notRunning (SeqState.hunting_of_failed hx)
  unfold State.clearFail
  dsimp only
  split
  · exact State.bonded_modSeq_out (s := s.modSeq f Seq.releaseTrip) rfl hr
  · exact State.bonded_lockout (s := s.modSeq f Seq.releaseTrip) _ _ hr

end

end Sys2Proof.Machine

/-! What every command keeps: a property of states that operations on one feeder, writes of other blocks and derivations keep. A
write may leave the Feeder Condition records of some feeders stale, and the derivations that follow it in the same command settle
them (06 R122). -/

namespace Sys2Proof.Machine

/-! ## What a derivation reads -/

/-- What Permission Logic reads of the tags of a feeder: their kinds and scopes (06 R116, R120). -/
def State.tagShapes (s : State) (f : Feeder) : List (TagKind × List Nat) :=
  (s.tags.filter (fun t => decide (t.feeder = f))).map (fun t => (t.kind, t.scope))

theorem State.tagged_eq_shapes (s : State) (f : Feeder) (k : TagKind) :
    s.tagged f k = (s.tagShapes f).any (fun p => decide (p.1 = k)) := by
  simp only [State.tagged, State.tagShapes, List.any_map, List.any_filter]
  congr 1
  funext t
  simp

theorem State.exclusionOf_eq_shapes (s : State) (f : Feeder) : s.exclusionOf f =
    if ((s.tagShapes f).filter (fun p => decide (p.1 = .huntExclude))).any (fun p => p.2.isEmpty) then .wholeFeeder
    else .sections (sortNums (((s.tagShapes f).filter (fun p => decide (p.1 = .huntExclude))).flatMap (·.2))) := by
  have hshapes : (s.tagShapes f).filter (fun p => decide (p.1 = .huntExclude)) =
      (s.tags.filter (fun t => decide (t.feeder = f ∧ t.kind = .huntExclude))).map (fun t => (t.kind, t.scope)) := by
    rw [State.tagShapes, List.filter_map, List.filter_filter]
    congr 2
    funext t
    simp [Bool.and_comm]
  rw [hshapes, State.exclusionOf, List.any_map, List.flatMap_map]
  rfl

/-- Two states in which a derivation of a feeder reads the same. -/
structure SameInputs (f : Feeder) (s t : State) : Prop where
  level : t.level f = s.level f
  constants : t.constants f = s.constants f
  groups : t.store.groups.get f = s.store.groups.get f
  latch : t.latch = s.latch
  inputs : t.inputs.get f = s.inputs.get f
  shapes : t.tagShapes f = s.tagShapes f

theorem SameInputs.conditionOf {f : Feeder} {s t : State} (h : SameInputs f s t) : t.conditionOf f = s.conditionOf f := by
  have htagged : ∀ k, t.tagged f k = s.tagged f k := fun k => by
    rw [State.tagged_eq_shapes, State.tagged_eq_shapes, h.shapes]
  have hexclusion : t.exclusionOf f = s.exclusionOf f := by
    rw [State.exclusionOf_eq_shapes, State.exclusionOf_eq_shapes, h.shapes]
  have hrequest : t.request f = s.request f := by
    funext g x
    have hvalid : t.groupValid f g = s.groupValid f g := by rw [State.groupValid, State.groupValid, h.groups]
    simp only [State.request, hvalid]
  have hchoose : ∀ l, t.chooseGroup f l = s.chooseGroup f l := fun l => by
    unfold State.chooseGroup
    rw [h.latch, h.constants, h.inputs, hrequest]
  have hcauses : ∀ l g, t.causesOf f l g = s.causesOf f l g := fun l g => by
    simp only [State.causesOf, htagged, h.inputs, h.latch]
  have hcontent : ∀ g, t.groupContent f g = s.groupContent f g := fun g => by
    cases g with
    | none => rfl
    | some g => simp only [State.groupContent, h.groups]
  simp only [State.conditionOf, h.level, hchoose, hcauses, hcontent, htagged, hexclusion]

/-- The level of a feeder follows from whether the calendar is SET, the levels and its constants. -/
theorem State.level_congr {s t : State} {f : Feeder} (hc : t.cal.clock.isNone = s.cal.clock.isNone)
    (hk : t.constants f = s.constants f) (hl : t.cal.levels.get (s.district f) = s.cal.levels.get (s.district f)) :
    t.level f = s.level f := by
  have hd : t.district f = s.district f := by rw [State.district, State.district, hk]
  rw [State.level, State.level, hc, hd, hl]

/-! ## The writes of commands -/

/-- What the writes of a command leave, those apart that Touches describes: no record of a breaker or a hunt changes, no tag enters,
the latch and the marker stay. -/
structure Writes (s t : State) : Prop where
  pending : t.pending = s.pending
  seq : t.seq = s.seq
  hunts : t.hunts = s.hunts
  cond : t.cond = s.cond
  marker : t.port.marker = s.port.marker
  latch : s.latch = true → t.latch = true
  tags : (t.tags.map (fun x => (x.number, x.feeder, x.kind))).Sublist (s.tags.map (fun x => (x.number, x.feeder, x.kind)))

theorem Writes.of_tags {s t : State}
    (ht : (t.tags.map (fun x => (x.number, x.feeder, x.kind))).Sublist (s.tags.map (fun x => (x.number, x.feeder, x.kind))))
    (hp : t.pending = s.pending := by rfl) (hs : t.seq = s.seq := by rfl) (hh : t.hunts = s.hunts := by rfl)
    (hc : t.cond = s.cond := by rfl) (hm : t.port.marker = s.port.marker := by rfl)
    (hl : s.latch = true → t.latch = true := by exact id) : Writes s t := ⟨hp, hs, hh, hc, hm, hl, ht⟩

/-- A write that leaves the tags, too. -/
theorem Writes.of_eq {s t : State} (hp : t.pending = s.pending := by rfl) (hs : t.seq = s.seq := by rfl)
    (hh : t.hunts = s.hunts := by rfl) (hc : t.cond = s.cond := by rfl) (hm : t.port.marker = s.port.marker := by rfl)
    (hl : s.latch = true → t.latch = true := by exact id) (ht : t.tags = s.tags := by rfl) :
    Writes s t := .of_tags (ht ▸ List.Sublist.refl _) hp hs hh hc hm hl

/-- No two tags bear one number. -/
def State.numbersApart (s : State) : Prop := (s.tags.map (·.number)).Nodup

theorem Writes.numbersApart {s t : State} (h : Writes s t) (hs : s.numbersApart) : t.numbersApart := by
  have hsub := (h.tags).map (fun p : Nat × Feeder × TagKind => p.1)
  simp only [List.map_map] at hsub
  exact hs.sublist hsub

/-- The feeders of a scope: that of a feeder has one, that of the part none. -/
def Scope.feeders (x : Scope) : List Feeder := Ix4.all.filter (x = .feeder ·)

theorem Scope.mem_feeders {x : Scope} {f : Feeder} : f ∈ x.feeders ↔ x = .feeder f := by
  simp [Scope.feeders, Ix4.mem_all]

/-- A property of states, given the feeders whose Feeder Condition record may be stale, that everything a command does keeps. -/
structure KeptCmd (P : List Feeder → State → Prop) : Prop where
  touches : ∀ {D f s t}, Touches f s t → (s.bonded f → t.bonded f) → P D s → P D t
  writes : ∀ {D E s t}, Writes s t → (s.numbersApart → ∀ f, f ∉ E → t.conditionOf f = s.conditionOf f) → P D s → P (D ++ E) t
  cond : ∀ {D s} f, P D s → P (D.filter (· ≠ f)) { s with cond := s.cond.set f (s.conditionOf f) }
  mono : ∀ {D E s}, D ⊆ E → P D s → P E s

namespace KeptCmd

variable {P : List Feeder → State → Prop} (K : KeptCmd P) {D : List Feeder} {s t : State}
include K

/-- A write that no derivation reads. -/
theorem quiet (hw : Writes s t) (hc : ∀ f, t.conditionOf f = s.conditionOf f) (h : P D s) : P D t :=
  K.mono (by simp) (K.writes (E := []) hw (fun _ f _ => hc f) h)

/-- A write that no derivation reads and that keeps the tags and the latch. -/
theorem plain (h : P D s) (hk : ∀ f, t.conditionOf f = s.conditionOf f := by exact fun _ => rfl)
    (hp : t.pending = s.pending := by rfl) (hs : t.seq = s.seq := by rfl) (hh : t.hunts = s.hunts := by rfl)
    (hc : t.cond = s.cond := by rfl) (hm : t.port.marker = s.port.marker := by rfl) (hl : t.latch = s.latch := by rfl)
    (ht : t.tags = s.tags := by rfl) : P D t :=
  K.quiet (.of_eq hp hs hh hc hm (fun e => hl.trans e) ht) hk h

theorem port {p : Port} (hp : p.marker = s.port.marker) (h : P D s) : P D { s with port := p } := K.plain h (hm := hp)

theorem answer (c : Byte) (r : Reply) (h : P D s) : P D (s.answer c r) := K.port rfl h

theorem att (a : Attention) (h : P D s) : P D { s with att := a } := K.plain h

theorem give (x : Scope) (d : Detail) (h : P D s) : P D (s.give x d) := K.att _ h

theorem link (l : Link) (h : P D s) : P D { s with link := l } := K.plain h

theorem contacts (c : Four Contacts) (h : P D s) : P D { s with contacts := c } :=
  K.plain h

theorem putSample (f : Feeder) (m : Sample) (h : P D s) : P D (s.putSample f m) :=
  K.plain h

theorem putEngine (f : Feeder) (e : Engine) (h : P D s) : P D (s.putEngine f e) :=
  K.plain h

theorem putSections (f : Feeder) (x : Table Section) (h : P D s) : P D (s.putSections f x) :=
  K.plain h

theorem putStaging (x : Staging) (h : P D s) : P D (s.putStaging x) :=
  K.plain h

/-- A calendar that is SET or UNSET as before, with the levels as before. -/
theorem cal (c : Calendar) (hn : c.clock.isNone = s.cal.clock.isNone) (hl : c.levels = s.cal.levels) (h : P D s) :
    P D { s with cal := c } :=
  K.plain h fun f => SameInputs.conditionOf
    ⟨State.level_congr hn rfl (by exact congrArg (fun l : Pair Nat => l.get _) hl), rfl, rfl, rfl, rfl, rfl⟩

/-! ## Derivations -/

theorem derive (f : Feeder) (h : P D s) : P (D.filter (· ≠ f)) (s.derive f) :=
  K.touches (f := f) ((Touches.refl f _).handOn _ _) (fun hb => hb.handOn _ _) (K.cond f h)

theorem deriveMany (fs : List Feeder) (h : P D s) : P (D.filter (· ∉ fs)) (s.deriveMany fs) := by
  induction fs generalizing D s with
  | nil => exact K.mono (fun _ hg => List.mem_filter.mpr ⟨hg, rfl⟩) h
  | cons f rest ih =>
    refine K.mono ?_ (ih (K.derive f h))
    intro g
    simp only [List.mem_filter, decide_eq_true_eq, List.mem_cons, not_or]
    rintro ⟨⟨hg, hf⟩, hrest⟩
    exact ⟨hg, hf, hrest⟩

/-- A derivation of feeders among which every stale one of a set is. -/
theorem deriveMany_of_stale {E : List Feeder} {fs : List Feeder} (hE : ∀ f ∈ E, f ∈ fs) (h : P (D ++ E) s) : P D (s.deriveMany fs) := by
  refine K.mono ?_ (K.deriveMany fs h)
  intro g hg
  obtain ⟨hg, hn⟩ := List.mem_filter.mp hg
  rcases List.mem_append.mp hg with hg | hg
  · exact hg
  · exact absurd (hE g hg) (of_decide_eq_true hn)

theorem derive_of_stale {f : Feeder} (h : P (D ++ [f]) s) : P D (s.derive f) :=
  K.deriveMany_of_stale (fs := [f]) (by simp) h

theorem deriveAll {E : List Feeder} (h : P E s) : P D (s.deriveMany Ix4.all) :=
  K.deriveMany_of_stale (E := E) (fun f _ => Ix4.mem_all f) (K.mono (by simp) h)

/-! ## Inputs, latch and records -/

theorem putInputs_derive (f : Feeder) (i : Inputs) (h : P D s) : P D ((s.putInputs f i).derive f) := by
  refine K.derive_of_stale (K.writes .of_eq (fun _ g hg => ?_) h)
  exact SameInputs.conditionOf ⟨rfl, rfl, rfl, rfl, Four.get_set_other _ _ (fun e => hg (List.mem_singleton.mpr e)), rfl⟩

theorem setMeasLost (f : Feeder) (b : Bool) (h : P D s) : P D (s.setMeasLost f b) := K.putInputs_derive f _ h

theorem restore (h : P D s) : P D s.restore := by
  refine K.deriveMany_of_stale (E := Ix4.all.filter fun f => (s.inputs.get f).restorePending) (fun _ => id)
    (K.writes .of_eq (fun _ f hf => ?_) h)
  have hf : (s.inputs.get f).restorePending = false := by simpa [Ix4.mem_all] using hf
  refine SameInputs.conditionOf ⟨rfl, rfl, rfl, rfl, ?_, rfl⟩
  simp only [Four.get_map]
  rw [← hf]

theorem setLatch (h : P D s) : P D s.setLatch := by
  unfold State.setLatch
  split
  · exact h
  · exact K.deriveAll (K.writes (E := Ix4.all) (.of_eq (hl := fun _ => rfl))
      (fun _ f hf => absurd (Ix4.mem_all f) hf) h)

theorem supervisionExpires (h : P D s) : P D s.supervisionExpires := by
  have htimer := K.att { s.att with expiries := min 255 (s.att.expiries + 1), timer := supervisionTimer s.att.period } h
  unfold State.supervisionExpires
  dsimp only
  apply K.give
  split
  · exact K.setLatch htimer
  · exact htimer

omit K in
/-- A record written leaves the groups and the constants of every feeder that is not its own. -/
theorem store_write_other {x : Target} {v : Bool} {c : Content} {w : Word16} {u : Store} {f : Feeder} (hf : x.scope ≠ .feeder f) :
    ((u.write x v c w).groups.get f = u.groups.get f) ∧ ((u.write x v c w).constants.get f = u.constants.get f) := by
  unfold Store.write
  split
  · exact ⟨Four.get_set_other _ _ fun e => hf (by rw [e]; rfl), rfl⟩
  · exact ⟨rfl, rfl⟩
  · exact ⟨rfl, Four.get_set_other _ _ fun e => hf (by rw [e]; rfl)⟩
  · exact ⟨rfl, rfl⟩

/-- The records of one feeder are written. -/
theorem store {x : Scope} {u : Store} (hg : ∀ f, x ≠ .feeder f → u.groups.get f = s.store.groups.get f)
    (hk : ∀ f, x ≠ .feeder f → u.constants.get f = s.store.constants.get f) (h : P D s) :
    P (D ++ x.feeders) { s with store := u } := by
  refine K.writes .of_eq (fun _ f hf => ?_) h
  rw [Scope.mem_feeders] at hf
  have hconstants : ({ s with store := u } : State).constants f = s.constants f := by
    exact congrArg Stored.validContent (hk f hf)
  exact SameInputs.conditionOf ⟨State.level_congr rfl hconstants rfl, hconstants, hg f hf, rfl, rfl, rfl⟩

theorem tellRecord (x : Target) (h : P (D ++ x.scope.feeders) s) : P D (s.tellRecord x) := by
  cases x with
  | group f g => exact K.deriveMany_of_stale (fs := [f]) (fun g hg => by simpa using (Scope.feeder.inj (Scope.mem_feeders.mp hg)).symm) h
  | curve n => exact K.mono (fun _ hg => by simpa [Target.scope, Scope.feeders] using hg) h
  | feeder f => exact K.deriveMany_of_stale (fs := [f]) (fun g hg => by simpa using (Scope.feeder.inj (Scope.mem_feeders.mp hg)).symm) h

theorem scrub (c : Option Content) (h : P D s) : P D (s.scrub c) := by
  unfold State.scrub
  split
  · exact h
  · dsimp only
    split
    · exact K.plain h
    · next n x d w _ _ =>
      have hpointer : P D { s with store := { s.store with scrub := n % 24 + 1 } } :=
        K.plain h
      exact K.tellRecord x (K.give _ _ (K.store (s := { s with store := { s.store with scrub := n % 24 + 1 } }) (fun _ hf => (store_write_other hf).1) (fun _ hf => (store_write_other hf).2) hpointer))

theorem completeCommit (d : Draft) (c : Option Content) (h : P D s) : P D (s.completeCommit d c) := by
  unfold State.completeCommit
  dsimp only
  split
  · exact K.tellRecord _ (K.give _ _ (K.store (fun _ hf => (store_write_other hf).1) (fun _ hf => (store_write_other hf).2) h))
  · exact K.tellRecord _ (K.give _ _ (K.give _ _
      (K.store (fun _ hf => (store_write_other hf).1) (fun _ hf => (store_write_other hf).2) h)))

/-! ## Tags -/

omit K in
/-- Tags of one number are one tag, where the numbers are apart. -/
theorem tag_eq_of_number (hs : s.numbersApart) {x y : Tag} (hx : x ∈ s.tags) (hy : y ∈ s.tags) (e : x.number = y.number) : x = y :=
  eq_of_nodup_map hs hx hy e

/-- Some tags leave the table. -/
theorem fewerTags {E : List Feeder} (keep : Tag → Bool) (hE : s.numbersApart → ∀ t ∈ s.tags, keep t = false → t.feeder ∈ E)
    (h : P D s) : P (D ++ E) { s with tags := s.tags.filter keep } := by
  refine K.writes (.of_tags (List.filter_sublist.map _)) (fun hs f hf => ?_) h
  refine SameInputs.conditionOf ⟨rfl, rfl, rfl, rfl, rfl, ?_⟩
  simp only [State.tagShapes, List.filter_filter]
  congr 1
  refine List.filter_congr fun t ht => ?_
  by_cases hk : keep t = true
  · simp [hk]
  · have hE' := hE hs t ht (by simpa using hk)
    simp only [Bool.and_eq_left_iff_imp, decide_eq_true_eq]
    rintro rfl
    exact absurd hE' hf

theorem retireTag {n : Nat} {x : Tag} (hx : s.findTag n = some x) (h : P D s) : P D (s.retireTag x) := by
  refine K.derive_of_stale (K.fewerTags _ (fun hs y hy hk => ?_) h)
  have hnumber : y.number = x.number := by simpa using hk
  have hfound : x ∈ s.tags := List.mem_of_find?_eq_some hx
  rw [tag_eq_of_number hs hy hfound hnumber]
  exact List.mem_singleton_self _

omit K in
theorem map_label {ts : List Tag} {g : Tag → Tag}
    (hg : ∀ x, (g x).number = x.number ∧ (g x).feeder = x.feeder ∧ (g x).kind = x.kind) :
    ((ts.map g).map (fun x => (x.number, x.feeder, x.kind))).Sublist (ts.map (fun x => (x.number, x.feeder, x.kind))) := by
  have hlabel : ∀ x ∈ ts, ((g x).number, (g x).feeder, (g x).kind) = (x.number, x.feeder, x.kind) := fun x _ => by
    obtain ⟨hn, hf, hk⟩ := hg x
    rw [hn, hf, hk]
  rw [List.map_map]
  exact (List.map_congr_left hlabel : _ = ts.map _) ▸ List.Sublist.refl _

omit K in
theorem tagShapes_map {g : Tag → Tag} (hg : ∀ x, (g x).feeder = x.feeder) {f : Feeder}
    (hs : ∀ x ∈ s.tags, x.feeder = f → (g x).kind = x.kind ∧ (g x).scope = x.scope) :
    ({ s with tags := s.tags.map g } : State).tagShapes f = s.tagShapes f := by
  have hfilter : (fun x : Tag => decide ((g x).feeder = f)) = fun x => decide (x.feeder = f) := funext fun x => by rw [hg]
  simp only [State.tagShapes, List.filter_map, List.map_map, Function.comp_def, hfilter]
  refine List.map_congr_left fun x hx => ?_
  rw [List.mem_filter, decide_eq_true_eq] at hx
  obtain ⟨hk, hsc⟩ := hs x hx.1 hx.2
  rw [hk, hsc]

theorem badAttempt (x : Tag) (y : Holder) (h : P D s) : P D (s.badAttempt x y) := by
  have hmod : P D (s.modTag x.number
      (fun u => { u with badAttempts := x.badAttempts + 1, frozen := decide (3 ≤ x.badAttempts + 1) })) := by
    refine K.quiet (.of_tags ?_) (fun f => ?_) h
    · exact map_label fun u => by dsimp only; split <;> exact ⟨rfl, rfl, rfl⟩
    · refine SameInputs.conditionOf ⟨rfl, rfl, rfl, rfl, rfl, ?_⟩
      exact tagShapes_map (fun u => by dsimp only; split <;> rfl) fun u _ _ => by dsimp only; split <;> exact ⟨rfl, rfl⟩
  unfold State.badAttempt
  dsimp only
  split
  · exact K.give _ _ hmod
  · exact hmod

/-- A tag found is changed in place, and its feeder derived. -/
theorem amend {n : Nat} {x : Tag} {g : Tag → Tag} (hx : s.findTag n = some x)
    (hg : ∀ u, (g u).number = u.number ∧ (g u).feeder = u.feeder ∧ (g u).kind = u.kind) (h : P D s) :
    P D ((s.modTag n g).derive x.feeder) := by
  have hmember : x ∈ s.tags := List.mem_of_find?_eq_some hx
  have hnumber : x.number = n := by simpa using List.find?_some hx
  refine K.derive_of_stale (K.writes (.of_tags ?_) (fun hs f hf => ?_) h)
  · exact map_label fun u => by
      split
      · exact hg u
      · exact ⟨rfl, rfl, rfl⟩
  · refine SameInputs.conditionOf ⟨rfl, rfl, rfl, rfl, rfl, ?_⟩
    have hfeeder : ∀ u, (if u.number = n then g u else u).feeder = u.feeder := fun u => by
      split
      · exact (hg u).2.1
      · rfl
    refine tagShapes_map hfeeder fun u hu huf => ?_
    have hother : u.number ≠ n := fun e => by
      have hux := tag_eq_of_number hs hu hmember (e.trans hnumber.symm)
      exact hf (by rw [List.mem_singleton, ← huf, hux])
    rw [if_neg hother]
    exact ⟨rfl, rfl⟩

theorem expiryNotices (gone : List Tag) (fs : List Feeder) (h : P D s) : P D (fs.foldl (State.expiryNotice gone) s) := by
  induction fs generalizing s with
  | nil => exact h
  | cons f rest ih =>
    apply ih
    unfold State.expiryNotice
    split
    · exact K.give _ _ h
    · exact h

theorem expireAndTell (m : Minute) (h : P D s) : P D (s.expireAndTell m) := by
  have hfewer := K.fewerTags (E := (s.expireTags m).2) (fun x => !x.expired m) (fun _ x hx hk => ?_) h
  · exact K.deriveMany_of_stale (fun _ => id) (K.expiryNotices _ _ hfewer)
  · refine List.mem_filter.mpr ⟨Ix4.mem_all _, List.any_eq_true.mpr ⟨x, List.mem_filter.mpr ⟨hx, by simpa using hk⟩, by simp⟩⟩

end KeptCmd

end Sys2Proof.Machine

/-! What every command keeps, continued: the calendar, the Pole Link, measurements, and the commands one by one. -/

namespace Sys2Proof.Machine

namespace KeptCmd

variable {P : List Feeder → State → Prop} (K : KeptCmd P) {D : List Feeder} {s t : State}
include K

/-! ## The calendar -/

omit K in
theorem levelOf_of_not_moved {c : Calendar} {d : District} (h : c.moved.contains d = false) : c.levelOf d = c.levels.get d := by
  have hd : d ∈ District.all := by cases d <;> decide
  rw [← Bool.not_eq_true, List.contains_iff_mem, Calendar.moved, List.mem_filter, not_and, decide_eq_true_eq, Classical.not_not] at h
  exact h hd

theorem settleLevels (h : P D s) : P D s.settleLevels := by
  refine K.deriveMany_of_stale (E := Ix4.all.filter fun f => s.cal.moved.contains (s.district f)) (fun _ => id)
    (K.writes .of_eq (fun _ f hf => ?_) h)
  have hstays : s.cal.moved.contains (s.district f) = false :=
    Bool.eq_false_iff.mpr fun hmoved => hf (List.mem_filter.mpr ⟨Ix4.mem_all f, hmoved⟩)
  refine SameInputs.conditionOf ⟨State.level_congr rfl rfl ?_, rfl, rfl, rfl, rfl, rfl⟩
  rw [← levelOf_of_not_moved hstays]
  cases s.district f <;> rfl

theorem recalendar {g : Calendar → Calendar} (h : P D s) (hn : (g s.cal).clock.isNone = s.cal.clock.isNone := by rfl)
    (hl : (g s.cal).levels = s.cal.levels := by rfl) : P D (s.recalendar g) := K.settleLevels (K.cal _ hn hl h)

theorem takeMinute (k : Clock) (d : Carry) (m : Mask) (x : MinuteTaker) (h : P D s) : P D (s.takeMinute k d m x) := by
  cases x with
  | tags => exact K.expireAndTell _ h
  | declarations => exact K.recalendar (g := fun c => c.expireDeclarations k.minute d.yearWrap m) h
  | schedule => exact K.recalendar (g := fun c => c.fire k) h
  | windows =>
    unfold State.takeMinute
    dsimp only
    split
    · exact K.recalendar h
    · exact h

theorem minuteChange (k : Clock) (d : Carry) (o : List MinuteTaker) (h : P D s) : P D (s.minuteChange k d o) := by
  unfold State.minuteChange
  generalize s.cal.kept k o = m
  induction o generalizing s with
  | nil => exact h
  | cons x rest ih => exact ih (K.takeMinute k d m x h)

omit K in
theorem tick_isNone (c : Calendar) : c.tick.1.clock.isNone = c.clock.isNone := by
  cases hc : c.clock <;> simp [Calendar.tick, hc]

omit K in
theorem tick_levels (c : Calendar) : c.tick.1.levels = c.levels := by
  cases hc : c.clock <;> simp [Calendar.tick, hc]

theorem tickCalendar (o : List MinuteTaker) (h : P D s) : P D (s.tickCalendar o) := by
  have htick := K.cal s.cal.tick.1 (tick_isNone _) (tick_levels _) h
  unfold State.tickCalendar
  dsimp only
  split
  · exact K.minuteChange _ _ o htick
  · exact htick

theorem setClock (k : Clock) (h : P D s) : P D (s.setClock k) := by
  unfold State.setClock
  dsimp only
  split
  · refine K.deriveAll (E := D ++ Ix4.all) (K.settleLevels (K.expireAndTell _ ?_))
    exact K.writes .of_eq (fun _ f hf => absurd (Ix4.mem_all f) hf) h
  · next hset =>
    refine K.settleLevels (K.expireAndTell _ (K.cal _ ?_ rfl h))
    rw [Bool.not_eq_true] at hset
    rw [hset]
    rfl

/-! ## The Pole Link -/

theorem huntDevice (f : Feeder) (a : Nat) (w m : Option DeviceTrouble) (h : P D s) : P D (s.huntDevice f a w m) :=
  K.touches ((Touches.refl f s).huntDevice a w m) (fun hb => hb.huntDevice a w m) h

theorem endOrder (a : Nat) (old new : Device) (w : Option DeviceTrouble) (h : P D s) : P D (s.endOrder a old new w) := by
  unfold State.endOrder
  dsimp only
  split
  · exact K.huntDevice _ _ _ _ (K.link _ h)
  · exact K.link _ h

theorem completeOrder (r : ReplyFrame) (d : Device) (o : Order) (h : P D s) : P D (s.completeOrder r d o) := by
  unfold State.completeOrder
  dsimp only
  split
  · exact K.endOrder _ _ _ _ h
  · split
    · exact K.endOrder _ _ _ _ h
    · exact K.endOrder _ _ _ _ (K.give _ _ h)
  · exact K.endOrder _ _ _ _ (K.give _ _ h)

theorem takeReply (r : ReplyFrame) (h : P D s) : P D (s.takeReply r) := by
  unfold State.takeReply
  split
  · exact h
  · split
    · exact h
    · split
      · exact K.completeOrder _ _ _ h
      · exact h

theorem replyExpires (a : Nat) (h : P D s) : P D (s.replyExpires a) := by
  unfold State.replyExpires
  split
  · exact h
  · split
    · exact h
    · split
      · exact h
      · split
        · exact K.link _ h
        · exact K.endOrder _ _ _ _ (K.give _ _ h)

theorem probeExpires (a : Nat) (h : P D s) : P D (s.probeExpires a) := by
  unfold State.probeExpires
  split
  · exact h
  · split
    · exact K.link _ h
    · exact h

theorem judgeAll (c : State → Feeder → Bool) (fs : List Feeder) (h : P D s) :
    P D (fs.foldl (fun u f => if c u f then u.judgeNeeded f else u) s) := by
  induction fs generalizing s with
  | nil => exact h
  | cons f rest ih =>
    refine ih (iteInduction (fun _ => ?_) fun _ => h)
    exact K.touches (Touches.refl f s).judgeNeeded (fun hb => hb.judgeNeeded) h

theorem clearLink (h : P D s) : P D s.clearLink := K.judgeAll State.ownsDevice Ix4.all (K.link _ h)

/-! ## Measurement -/

theorem handTrip (p : Report) (n : Element) (o : List Element) (h : P D s) : P D (s.handTrip p n o) := by
  have htold : P D (if (s.seq.get p.feeder).position = .opened then
      (s.give (.feeder p.feeder) (.trip n (s.seq.get p.feeder).shots)).give (.feeder p.feeder) (.positionAlarm (.element n))
      else s.give (.feeder p.feeder) (.trip n (s.seq.get p.feeder).shots)) :=
    iteInduction (fun _ => K.give _ _ (K.give _ _ h)) fun _ => K.give _ _ h
  exact K.touches ((Touches.refl p.feeder _).tripRequest n) (fun hb => hb.tripRequest n) (K.putEngine _ _ htold)

theorem evaluateReport (p : Report) (h : P D s) : P D (s.evaluateReport p) := by
  unfold State.evaluateReport
  dsimp only
  split
  · exact K.putEngine _ _ h
  · exact K.handTrip _ _ _ (K.putEngine _ _ h)

theorem takeReport (p : Report) (h : P D s) : P D (s.takeReport p) :=
  K.evaluateReport p (iteInduction (fun _ => K.setMeasLost _ _ (K.putSample _ _ h)) fun _ => K.putSample _ _ h)

theorem watchExpires (f : Feeder) (h : P D s) : P D (s.watchExpires f) := by
  unfold State.watchExpires
  dsimp only
  split
  · exact K.putSample _ _ h
  · split
    · exact K.putSample _ _ h
    · exact K.setMeasLost _ _ (K.give _ _ (K.putEngine _ _ (K.putSample _ _ h)))
  · exact h

/-! ## Feeders -/

/-- An operation on one feeder's breaker and hunt. -/
theorem on (f : Feeder) {g : State → State} (h : P D s) (ht : Touches f s s → Touches f s (g s))
    (hb : s.bonded f → (g s).bonded f) : P D (g s) := K.touches (ht (Touches.refl f s)) hb h

theorem modSeq (f : Feeder) {g : Seq → Seq} (h : P D s)
    (hc : (g (s.seq.get f)).closeDrive = true → (s.seq.get f).closeDrive = true ∨ (s.causes f).tagNoClose = false)
    (hs : (g (s.seq.get f)).state.hunting = (s.seq.get f).state.hunting) : P D (s.modSeq f g) :=
  K.touches ((Touches.refl f s).putSeq _ hc) (fun hb => State.bonded_modSeq hs hb) h

omit K in
theorem onFeeder {n : Nat} {k : Feeder → State × Reply} (h : P D s) (hk : ∀ f, P D (k f).1) : P D (Machine.onFeeder n s k).1 := by
  unfold Machine.onFeeder
  split
  · exact hk _
  · exact h

/-! ## The rules of the host commands -/

theorem closeBreaker (n : Nat) (h : P D s) : P D (Machine.closeBreaker n s).1 := by
  refine onFeeder h fun f => ?_
  dsimp only
  split
  · exact h
  · next hl =>
    split
    · exact h
    · next hc =>
      split
      · exact h
      · dsimp only
        refine K.modSeq f h (fun _ => .inr ?_) ?_
        · exact Causes.tagNoClose_of_any _ _ rfl (by simpa using hc)
        · cases hx : (s.seq.get f).state <;> first | rfl | simp [hx, SeqState.lockedOut] at hl

theorem openBreaker (n : Nat) (h : P D s) : P D (Machine.openBreaker n s).1 := by
  refine onFeeder h fun f => ?_
  split
  · exact h
  · exact K.on f (g := fun s => s.hostOpen f) h (fun ht => ht.hostOpen) fun hb => hb.hostOpen

theorem clearBreakerFail (n : Nat) (h : P D s) : P D (Machine.clearBreakerFail n s).1 := by
  refine onFeeder h fun f => ?_
  split
  · next hx => exact K.on f (g := fun s => s.clearFail f) h (fun ht => ht.clearFail) fun hb => hb.clearFail hx
  · exact h

theorem setHostBlock (n : Nat × Nat) (h : P D s) : P D (Machine.setHostBlock n s).1 := by
  unfold Machine.setHostBlock
  split
  · dsimp only
    split
    · exact h
    · exact K.putInputs_derive _ _ h
  · exact h

theorem selectGroup (x : Nat × Nat) (h : P D s) : P D (Machine.selectGroup x s).1 := by
  unfold Machine.selectGroup
  split
  · exact K.putInputs_derive _ _ h
  · exact h

theorem amendTag (x : AmendTagFields) (h : P D s) : P D (Machine.amendTag x s).1 := by
  unfold Machine.amendTag
  split
  · exact h
  · split
    · exact h
    · split
      · exact h
      · next hx =>
        split
        · exact h
        · split
          · exact K.badAttempt _ _ h
          · split
            · exact h
            · split
              · exact h
              · exact K.amend hx (fun _ => ⟨rfl, rfl, rfl⟩) h

theorem releaseTag (x : ReleaseFields) (h : P D s) : P D (Machine.releaseTag x s).1 := by
  unfold Machine.releaseTag
  split
  · exact h
  · split
    · exact h
    · next hx =>
      split
      · exact h
      · split
        · exact K.retireTag hx h
        · exact K.badAttempt _ _ h

theorem supervisorRelease (x : ReleaseFields) (h : P D s) : P D (Machine.supervisorRelease x s).1 := by
  unfold Machine.supervisorRelease
  split
  · exact h
  · split
    · exact h
    · split
      · exact h
      · next hx => exact K.retireTag hx h

theorem setCalendar (k : Clock) (h : P D s) : P D (Machine.setCalendar k s).1 := by
  unfold Machine.setCalendar
  split
  · exact K.setClock _ h
  · exact h

theorem setTrim (n : Nat) (h : P D s) : P D (Machine.setTrim n s).1 := by
  unfold Machine.setTrim
  dsimp only
  split
  · exact K.cal _ rfl rfl h
  · exact h

theorem putWindow (i : Ix4) (w : Option Window) (h : P D s) : P D (s.putWindow i w) := K.recalendar h

theorem writeWindow (x : WindowFields) (h : P D s) : P D (Machine.writeWindow x s).1 := by
  unfold Machine.writeWindow
  split
  · exact K.putWindow _ _ h
  · exact h

theorem clearWindow (n : Nat) (h : P D s) : P D (Machine.clearWindow n s).1 := by
  unfold Machine.clearWindow
  split
  · split
    · exact h
    · exact K.putWindow _ _ h
  · exact h

theorem declareLevel (x : DeclareFields) (h : P D s) : P D (Machine.declareLevel x s).1 := by
  unfold Machine.declareLevel
  split
  · exact h
  · split
    · exact h
    · split
      · exact h
      · dsimp only
        exact K.recalendar h

theorem liftLevel (n : Nat) (h : P D s) : P D (Machine.liftLevel n s).1 := by
  unfold Machine.liftLevel
  split
  · dsimp only
    exact K.recalendar h
  · exact h

theorem addEntry (x : EntryFields) (h : P D s) : P D (Machine.addEntry x s).1 := by
  unfold Machine.addEntry
  split
  · exact h
  · split
    · exact h
    · split
      · exact h
      · exact K.cal _ rfl rfl h

theorem deleteEntry (n : Nat) (h : P D s) : P D (Machine.deleteEntry n s).1 := by
  unfold Machine.deleteEntry Machine.onEntry
  split
  · split
    · exact K.cal _ rfl rfl h
    · exact h
  · exact h

theorem writeSection (x : SectionFields) (h : P D s) : P D (Machine.writeSection x s).1 := by
  unfold Machine.writeSection
  split
  · exact h
  · refine onFeeder h fun f => ?_
    split
    · exact h
    · exact K.putSections _ _ h

theorem deleteSection (x : Nat × Nat) (h : P D s) : P D (Machine.deleteSection x s).1 := by
  refine onFeeder h fun f => ?_
  split
  · dsimp only
    split
    · exact h
    · split
      · exact h
      · exact K.putSections _ _ h
  · exact h

theorem startHunt (n : Nat) (h : P D s) : P D (Machine.startHunt n s).1 := by
  refine onFeeder h fun f => ?_
  dsimp only
  split
  · exact h
  · split
    · exact h
    · split
      · exact h
      · split
        · exact h
        · exact K.on f (g := fun s => s.startHuntOn f true _ _) h (fun ht => ht.startHuntOn _ _ _)
            fun _ => State.bonded_startHuntOn _ _ _

omit K in
theorem onHunt {n : Nat} {k : Feeder → Hunt → State × Reply} (h : P D s) (hk : ∀ f x, s.hunts.get f = some x → P D (k f x).1) :
    P D (Machine.onHunt n s k).1 := by
  refine onFeeder h fun f => ?_
  split
  · next hx => exact hk f _ hx
  · exact h

theorem abandonHunt (n : Nat) (h : P D s) : P D (Machine.abandonHunt n s).1 := by
  refine onHunt h fun f x _ => ?_
  split
  · exact h
  · exact K.on f (g := fun s => s.endHunt f (.abandoned .host) none) h (fun ht => ht.endHunt _ _)
      fun _ => State.bonded_endHunt _ rfl

theorem dismissHunt (n : Nat) (h : P D s) : P D (Machine.dismissHunt n s).1 := by
  refine onHunt h fun f x hx => ?_
  split
  · next hp =>
    refine K.on f (g := fun s => s.putHunt f none) h (fun ht => ht.putHunt _) fun hb => ?_
    have hnot : s.huntRuns f = false := (State.huntRuns_of_get hx).trans (by simp [hp])
    exact (State.huntRuns_putHunt_none s f).trans (hnot.symm.trans hb)
  · exact h

theorem writeDevice (x : DeviceFields) (h : P D s) : P D (Machine.writeDevice x s).1 := by
  unfold Machine.writeDevice
  split
  · exact h
  · split
    · exact h
    · exact K.link _ h

omit K in
theorem onDevice {n : Nat} {k : Device → State × Reply} (h : P D s) (hk : ∀ d, P D (k d).1) : P D (Machine.onDevice n s k).1 := by
  unfold Machine.onDevice
  split
  · split
    · exact hk _
    · exact h
  · exact h

theorem deleteDevice (n : Nat) (h : P D s) : P D (Machine.deleteDevice n s).1 := by
  refine onDevice h fun d => ?_
  split
  · exact h
  · exact K.link _ h

theorem orderSwitch (x : Nat × Nat) (h : P D s) : P D (Machine.orderSwitch x s).1 := by
  unfold Machine.orderSwitch
  split
  · exact h
  · refine onDevice h fun d => ?_
    split
    · exact h
    · exact K.link _ h

theorem setLinkLimit (n : Nat) (h : P D s) : P D (Machine.setLinkLimit n s).1 := by
  unfold Machine.setLinkLimit
  split
  · split
    · exact h
    · exact K.link _ h
  · exact h

theorem setAttentionLevel (x : Nat × Nat) (h : P D s) : P D (Machine.setAttentionLevel x s).1 := by
  unfold Machine.setAttentionLevel
  split
  · exact h
  · split
    · exact h
    · exact K.att _ h

theorem setMaskLevel (n : Nat) (h : P D s) : P D (Machine.setMaskLevel n s).1 := by
  unfold Machine.setMaskLevel
  split
  · exact h
  · exact K.att _ h

theorem fetchAttention (x : Unit) (h : P D s) : P D (Machine.fetchAttention x s).1 := by
  unfold Machine.fetchAttention
  split
  · exact h
  · exact K.att _ h

theorem setSupervision (x : Nat × Nat) (h : P D s) : P D (Machine.setSupervision x s).1 := by
  unfold Machine.setSupervision
  split
  · exact h
  · split
    · exact h
    · split
      · exact h
      · exact K.att _ h

theorem openStaging (x : TargetFields) (h : P D s) : P D (Machine.openStaging x s).1 := by
  unfold Machine.openStaging
  split
  · exact h
  · exact h
  · split
    · exact K.putStaging _ h
    · exact h

theorem writeStaged (x : StagedFields) (h : P D s) : P D (Machine.writeStaged x s).1 := by
  unfold Machine.writeStaged
  split
  · exact h
  · exact h
  · split
    · exact K.putStaging _ h
    · exact h

theorem discardStaging (x : Unit) (h : P D s) : P D (Machine.discardStaging x s).1 := by
  unfold Machine.discardStaging
  split
  · exact h
  · exact h
  · exact K.putStaging _ h

theorem commitStaging (x : Unit) (h : P D s) : P D (Machine.commitStaging x s).1 := by
  unfold Machine.commitStaging
  split
  · exact h
  · exact h
  · split
    · exact h
    · exact K.putStaging _ h

/-! ## The end of a transaction -/

/-- The end of a transaction that performs no reset keeps what its judging keeps. -/
theorem endTransaction {g : State → State} (hp : s.port.phase ≠ .resetPending) (h : P D s) (hg : P D s → P D (g s)) :
    P D (s.endTransaction g) := by
  cases hphase : s.port.phase with
  | ready => rw [State.endTransaction_ready g hphase]; exact hg h
  | resetPending => exact absurd hphase hp
  | cut => rw [State.endTransaction_cut g hphase]; exact K.port rfl h

theorem goodFrame {g : State → State} (hp : s.port.phase ≠ .resetPending) (h : P D s) (hg : ∀ u, P D u → P D (g u))
    (e : Machine.goodFrame s g = .next t) : P D t := by
  cases e
  exact K.endTransaction hp h fun h => hg _ (K.att _ h)

/-- A host command keeps what its rule keeps. -/
theorem serve {α : Type} {n : Nat} {reader : Payload → Option α} {act : α → State → State × Reply} {p : Payload}
    (hp : s.port.phase ≠ .resetPending) (h : P D s) (e : Machine.serve n reader act p s = .next t)
    (ha : ∀ a u, P D u → P D (act a u).1) : P D t := by
  refine K.goodFrame hp h (fun u hu => ?_) e
  unfold Machine.dispatch
  split
  · exact K.answer _ _ hu
  · exact K.answer _ _ (ha _ _ hu)

/-- A command whose rule changes no state. -/
theorem reads {α : Type} {n : Nat} {reader : Payload → Option α} {act : α → State → State × Reply} {p : Payload}
    (hp : s.port.phase ≠ .resetPending) (h : P D s) (e : Machine.serve n reader act p s = .next t)
    (ha : ∀ a u, (act a u).1 = u) : P D t := K.serve hp h e fun a u hu => (ha a u).symm ▸ hu

omit K in
theorem busy {α : Type} {act : α → State → State × Reply} (ha : ∀ a u, P D u → P D (act a u).1) (a : α) (u : State) (h : P D u) :
    P D (busyWhileCommitting act a u).1 := by
  unfold busyWhileCommitting
  split
  · exact h
  · exact ha a u h

omit K in
theorem busy_same {α : Type} {act : α → State → State × Reply} (ha : ∀ a u, (act a u).1 = u) (a : α) (u : State) :
    (busyWhileCommitting act a u).1 = u := by
  unfold busyWhileCommitting
  split
  · rfl
  · exact ha a u

end KeptCmd

end Sys2Proof.Machine

namespace Sys2Proof

open Machine

/-! ## Which commands reset -/

/-- The transaction of a command that ends it is not empty (11 R197). -/
def Instr.transacts (i : Instr) : Prop :=
  i.frame.isSome = true ∨ (∃ b, i = .frameError b) ∨ (∃ c, i = .unknownCommand c)

/-- A command resets the part: a cold reset, the nWARM pin, or the transaction that performs a pending RESET_PART (11 R203, R204). -/
def Instr.resets (i : Instr) (s : Machine.State) : Prop :=
  (∃ pins, i = .coldReset pins) ∨ (∃ pins, i = .warmReset .pin pins)
    ∨ (s.port.phase = .resetPending ∧ (i.transacts ∨ ∃ pins, i = .warmReset .transaction pins))

namespace Machine.KeptCmd

variable {P : List Feeder → State → Prop} (K : KeptCmd P) {D : List Feeder} {s t : State}
include K

/-- Every command but a reset, PLACE_TAG and WRITE_MARKER. -/
theorem exec {i : Instr} (hi : ¬ i.resets s) (hplace : ∀ p, i ≠ .placeTag p) (hmarker : ∀ p, i ≠ .writeMarker p) (h : P D s)
    (e : Machine.exec i s = .next t) : P D t := by
  have hp : i.transacts → s.port.phase ≠ .resetPending := fun ht hphase => hi (.inr (.inr ⟨hphase, .inl ht⟩))
  cases i with
  | nop p =>
    simp only [Machine.exec, execNop] at e
    refine K.goodFrame (hp (.inl rfl)) h (fun u hu => ?_) e
    split
    · exact hu
    · exact K.answer _ _ hu
  | resetPart p => exact K.serve (hp (.inl rfl)) h e fun _ _ hu => K.port rfl hu
  | readStartReason p => exact K.reads (hp (.inl rfl)) h e readStartReason_same
  | writeMarker p => exact absurd rfl (hmarker p)
  | readElements p => exact K.reads (hp (.inl rfl)) h e readElements_same
  | openStaging p => exact K.serve (hp (.inl rfl)) h e (busy fun _ _ => K.openStaging _)
  | writeStaged p => exact K.serve (hp (.inl rfl)) h e fun _ _ => K.writeStaged _
  | readStaging p => exact K.reads (hp (.inl rfl)) h e readStaging_same
  | discardStaging p => exact K.serve (hp (.inl rfl)) h e fun _ _ => K.discardStaging _
  | commitStaging p => exact K.serve (hp (.inl rfl)) h e (busy fun _ _ => K.commitStaging _)
  | readGroup p => exact K.reads (hp (.inl rfl)) h e (busy_same readGroup_same)
  | readCurve p => exact K.reads (hp (.inl rfl)) h e (busy_same readCurve_same)
  | readConstants p => exact K.reads (hp (.inl rfl)) h e (busy_same readConstants_same)
  | readStoreStatus p => exact K.reads (hp (.inl rfl)) h e readStoreStatus_same
  | closeBreaker p => exact K.serve (hp (.inl rfl)) h e fun _ _ => K.closeBreaker _
  | openBreaker p => exact K.serve (hp (.inl rfl)) h e fun _ _ => K.openBreaker _
  | clearBreakerFail p => exact K.serve (hp (.inl rfl)) h e fun _ _ => K.clearBreakerFail _
  | setHostBlock p => exact K.serve (hp (.inl rfl)) h e fun _ _ => K.setHostBlock _
  | readFeeder p => exact K.reads (hp (.inl rfl)) h e readFeeder_same
  | placeTag p => exact absurd rfl (hplace p)
  | amendTag p => exact K.serve (hp (.inl rfl)) h e fun _ _ => K.amendTag _
  | releaseTag p => exact K.serve (hp (.inl rfl)) h e fun _ _ => K.releaseTag _
  | supervisorRelease p => exact K.serve (hp (.inl rfl)) h e fun _ _ => K.supervisorRelease _
  | readTag p => exact K.reads (hp (.inl rfl)) h e readTag_same
  | listTags p => exact K.reads (hp (.inl rfl)) h e listTags_same
  | tagsRestored p => exact K.serve (hp (.inl rfl)) h e fun _ _ => K.restore
  | setCalendar p => exact K.serve (hp (.inl rfl)) h e fun _ _ => K.setCalendar _
  | readCalendar p => exact K.reads (hp (.inl rfl)) h e readCalendar_same
  | setTrim p => exact K.serve (hp (.inl rfl)) h e fun _ _ => K.setTrim _
  | writeWindow p => exact K.serve (hp (.inl rfl)) h e fun _ _ => K.writeWindow _
  | clearWindow p => exact K.serve (hp (.inl rfl)) h e fun _ _ => K.clearWindow _
  | readWindow p => exact K.reads (hp (.inl rfl)) h e readWindow_same
  | declareLevel p => exact K.serve (hp (.inl rfl)) h e fun _ _ => K.declareLevel _
  | liftLevel p => exact K.serve (hp (.inl rfl)) h e fun _ _ => K.liftLevel _
  | addEntry p => exact K.serve (hp (.inl rfl)) h e fun _ _ => K.addEntry _
  | deleteEntry p => exact K.serve (hp (.inl rfl)) h e fun _ _ => K.deleteEntry _
  | readEntry p => exact K.reads (hp (.inl rfl)) h e readEntry_same
  | listEntries p => exact K.reads (hp (.inl rfl)) h e listEntries_same
  | readLevels p => exact K.reads (hp (.inl rfl)) h e readLevels_same
  | selectGroup p => exact K.serve (hp (.inl rfl)) h e fun _ _ => K.selectGroup _
  | readCondition p => exact K.reads (hp (.inl rfl)) h e readCondition_same
  | writeSection p => exact K.serve (hp (.inl rfl)) h e fun _ _ => K.writeSection _
  | deleteSection p => exact K.serve (hp (.inl rfl)) h e fun _ _ => K.deleteSection _
  | readSection p => exact K.reads (hp (.inl rfl)) h e readSection_same
  | listSections p => exact K.reads (hp (.inl rfl)) h e listSections_same
  | locate p => exact K.reads (hp (.inl rfl)) h e locate_same
  | startHunt p => exact K.serve (hp (.inl rfl)) h e fun _ _ => K.startHunt _
  | abandonHunt p => exact K.serve (hp (.inl rfl)) h e fun _ _ => K.abandonHunt _
  | readHunt p => exact K.reads (hp (.inl rfl)) h e readHunt_same
  | dismissHunt p => exact K.serve (hp (.inl rfl)) h e fun _ _ => K.dismissHunt _
  | writeDevice p => exact K.serve (hp (.inl rfl)) h e fun _ _ => K.writeDevice _
  | deleteDevice p => exact K.serve (hp (.inl rfl)) h e fun _ _ => K.deleteDevice _
  | readDevice p => exact K.reads (hp (.inl rfl)) h e readDevice_same
  | listDevices p => exact K.reads (hp (.inl rfl)) h e listDevices_same
  | orderSwitch p => exact K.serve (hp (.inl rfl)) h e fun _ _ => K.orderSwitch _
  | setLinkLimit p => exact K.serve (hp (.inl rfl)) h e fun _ _ => K.setLinkLimit _
  | linkClear p => exact K.serve (hp (.inl rfl)) h e fun _ _ => K.clearLink
  | readLink p c => exact K.reads (s := s.senseCarrier c) (hp (.inl rfl)) (K.link _ h) e readLink_same
  | setAttentionLevel p => exact K.serve (hp (.inl rfl)) h e fun _ _ => K.setAttentionLevel _
  | setMaskLevel p => exact K.serve (hp (.inl rfl)) h e fun _ _ => K.setMaskLevel _
  | fetchAttention p => exact K.serve (hp (.inl rfl)) h e fun _ _ => K.fetchAttention _
  | readAttention p => exact K.reads (hp (.inl rfl)) h e readAttention_same
  | setSupervision p => exact K.serve (hp (.inl rfl)) h e fun _ _ => K.setSupervision _
  | frameError b =>
    cases e
    exact K.endTransaction (hp (.inr (.inl ⟨b, rfl⟩))) h fun h => K.answer _ _ h
  | unknownCommand c => exact K.goodFrame (hp (.inr (.inr ⟨c, rfl⟩))) h (fun _ hu => K.answer _ _ hu) e
  | emptyTransaction =>
    cases e
    split
    · exact K.port rfl h
    · exact h
  | coldReset pins => exact absurd (.inl ⟨pins, rfl⟩) hi
  | warmReset w pins =>
    cases w with
    | pin => exact absurd (.inr (.inl ⟨pins, rfl⟩)) hi
    | transaction =>
      cases e
      split
      · next hphase => exact absurd (.inr (.inr ⟨hphase, .inr ⟨pins, rfl⟩⟩)) hi
      · exact h
  | intervalReport b c =>
    simp only [Machine.exec, execIntervalReport] at e
    split at e <;> cases e
    · exact h
    · split
      · exact K.takeReport _ h
      · exact h
  | watchExpiry f =>
    cases e
    split
    · exact K.watchExpires f h
    · exact h
  | decodedPositionChange f c =>
    cases e
    have hc := K.contacts (s.contacts.set f c) h
    split
    · exact hc
    · exact K.on f (g := fun s => s.positionChange f c.decode) hc (fun ht => ht.positionChange _) fun hb => hb.positionChange _
  | tripFailExpiry f =>
    cases e
    split
    · exact K.on f (g := fun s => s.tripFails f) h (fun ht => ht.tripFails) fun hb => hb.tripFails
    · exact h
  | closeFailExpiry f =>
    cases e
    split
    · exact K.on f (g := fun s => s.closeFails f) h (fun ht => ht.closeFails) fun hb => hb.closeFails
    · exact h
  | deadTimerExpiry f =>
    simp only [Machine.exec, execDeadTimerExpiry] at e
    cases e
    split
    · next hx => exact K.on f (g := fun s => s.deadEnds f) h (fun ht => ht.deadEnds) fun hb => hb.deadEnds hx.2
    · exact h
  | reclaimTimerExpiry f =>
    simp only [Machine.exec, execReclaimTimerExpiry] at e
    cases e
    split
    · next hx => exact K.modSeq f h .inl (by rw [hx.2]; rfl)
    · exact h
  | closeOntoFaultWindowExpiry f =>
    cases e
    split
    · exact K.modSeq f h .inl rfl
    · exact h
  | holdTimerExpiry f =>
    cases e
    exact K.on f (g := fun s => s.holdExpires f) h (fun ht => ht.holdExpires) fun hb => hb.holdExpires
  | commitCompletion c =>
    simp only [Machine.exec, execCommitCompletion] at e
    split at e <;> cases e
    · exact K.completeCommit _ _ h
    · exact h
    · exact h
  | secondTick c =>
    cases e
    exact K.scrub _ (K.tickCalendar _ h)
  | minuteChange x =>
    cases e
    split
    · exact K.scrub _ (K.tickCalendar _ h)
    · exact h
  | supervisionExpiry =>
    cases e
    split
    · exact K.supervisionExpires h
    · exact h
  | replyFrame b c =>
    simp only [Machine.exec, execReplyFrame] at e
    split at e <;> cases e
    · exact K.takeReply _ (K.link _ h)
    · exact K.link _ h
  | frameSent =>
    cases e
    exact K.link _ h
  | replyTimerExpiry a =>
    cases e
    exact K.replyExpires a h
  | probeTimerExpiry a =>
    cases e
    exact K.probeExpires a h
  | arbiterChoice c =>
    cases e
    exact K.link (s := s.senseCarrier c) _ (K.link _ h)
  | resend c =>
    cases e
    exact K.link (s := s.senseCarrier c) _ (K.link _ h)
  | clearFrame c =>
    cases e
    exact K.link (s := s.senseCarrier c) _ (K.link _ h)

end Machine.KeptCmd

end Sys2Proof

/-! What every command keeps, in the last place: PLACE_TAG, WRITE_MARKER and the resets; and what every step keeps of the invariants of
Safety.lean. -/

namespace Sys2Proof.Machine

/-! ## Resets -/

/-- A command that resets leaves the part cold, or warm from the state that it began in, the carrier as READ_LINK senses it. -/
theorem exec_of_resets {i : Instr} {s t : State} (hi : i.resets s) (e : exec i s = .next t) :
    (∃ pins, i = .coldReset pins ∧ t = State.cold pins s.pending)
      ∨ ∃ u kind pins, (u = s ∨ ∃ c, u = s.senseCarrier c) ∧ t = u.warmReset kind pins := by
  have transaction {u : State} {g : State → State} (hu : u = s ∨ ∃ c, u = s.senseCarrier c) (hp : u.port.phase = .resetPending)
      (ht : t = u.endTransaction g) : ∃ u kind pins, (u = s ∨ ∃ c, u = s.senseCarrier c) ∧ t = u.warmReset kind pins :=
    ⟨u, _, _, hu, ht.trans (State.endTransaction_resetPending g hp)⟩
  rcases hi with ⟨pins, rfl⟩ | ⟨pins, rfl⟩ | ⟨hp, ht | ⟨pins, rfl⟩⟩
  · cases e
    exact .inl ⟨pins, rfl, rfl⟩
  · cases e
    exact .inr ⟨s, _, pins, .inl rfl, rfl⟩
  · refine .inr ?_
    cases i with
    | readLink p c =>
      cases e
      exact transaction (.inr ⟨c, rfl⟩) hp rfl
    | _ =>
      first
        | cases e; exact transaction (.inl rfl) hp rfl
        | exact absurd ht (by simp [Instr.transacts, Instr.frame])
  · simp only [exec, execWarmReset, if_pos hp] at e
    cases e
    exact .inr ⟨s, _, pins, .inl rfl, rfl⟩

theorem Touches.warmHunt {f : Feeder} {s t : State} (h : Touches f s t) : Touches f s (t.warmHunt f) := by
  unfold State.warmHunt
  split
  · split
    · exact h
    · exact h.finishHunt _ _ _
  · exact h

theorem Touches.deriveQuietly (f : Feeder) (s : State) :
    Touches f { s with cond := s.cond.set f (s.conditionOf f) } (s.deriveQuietly f) := by
  have h := Touches.refl f { s with cond := s.cond.set f (s.conditionOf f) }
  exact (h.ite (h.give _)).setWish _

theorem State.deriveQuietly_seq (s : State) (f : Feeder) : (s.deriveQuietly f).seq = s.seq := by
  unfold State.deriveQuietly
  dsimp only
  split <;> rfl

theorem State.deriveQuietly_hunts (s : State) (f : Feeder) : (s.deriveQuietly f).hunts = s.hunts := by
  unfold State.deriveQuietly
  dsimp only
  split <;> rfl

/-- What every warmHunt keeps, all four of them keep. -/
theorem State.warmHunts_induct {P : State → Prop} (hP : ∀ s f, P s → P (s.warmHunt f)) {s : State} (h : P s) :
    P (Ix4.all.foldl State.warmHunt s) := by
  generalize Ix4.all = fs
  induction fs generalizing s with
  | nil => exact h
  | cons f rest ih => exact ih (hP s f h)

namespace KeptCmd

variable {P : List Feeder → State → Prop} (K : KeptCmd P) {D : List Feeder} {s t : State}
include K

theorem deriveQuietly (f : Feeder) (h : P D s) : P (D.filter (· ≠ f)) (s.deriveQuietly f) := by
  refine K.touches (Touches.deriveQuietly f s) (fun hb => ?_) (K.cond f h)
  exact State.bonded_congr (s := { s with cond := s.cond.set f (s.conditionOf f) }) (by rw [State.deriveQuietly_hunts])
    (by rw [State.deriveQuietly_seq]) hb

theorem calendarAfterReset (n : Nat) (h : P D s) : P Ix4.all (s.calendarAfterReset n) := by
  have any {c : Calendar} (h : P D s) : P Ix4.all { s with cal := c } :=
    K.mono (fun f _ => Ix4.mem_all f) (K.writes (E := Ix4.all) .of_eq (fun _ f hf => absurd (Ix4.mem_all f) hf) h)
  unfold State.calendarAfterReset
  dsimp only
  split
  · exact any h
  · refine K.expiryNotices _ _ (K.mono (fun f _ => Ix4.mem_all f) (K.fewerTags (E := Ix4.all) _ (fun _ x _ _ => Ix4.mem_all _) (any h)))

/-- A warm reset, once its blocks are set: the derivations at its end settle every record. -/
theorem warmReset (kind : StartKind) (pins : Pins) (h : P Ix4.all (s.warmBlocks pins)) : P [] (s.warmReset kind pins) := by
  have hcal := K.calendarAfterReset pins.ticks h
  refine K.port rfl (K.mono ?_ (K.deriveQuietly .n4 (K.deriveQuietly .n3 (K.deriveQuietly .n2 (K.deriveQuietly .n1 hcal)))))
  intro f hf
  cases f <;> simp at hf

/-- PLACE_TAG, where a tag placed keeps it with the record of its feeder stale. -/
theorem placeTag {p : Payload} (hp : s.port.phase ≠ .resetPending) (h : P [] s) (e : Machine.exec (.placeTag p) s = .next t)
    (hplace : ∀ u x, u.placeCheck x = none → P [] u → P [x.feeder] { u with tags := u.tags ++ [x] }) : P [] t := by
  refine K.serve hp h e fun a u hu => ?_
  unfold Machine.placeTag
  split
  · exact hu
  · split
    · exact hu
    · next hc => exact K.mono (by simp) (K.derive _ (hplace _ _ hc hu))

/-- Every command, where PLACE_TAG, writing the marker and the resets keep it. -/
theorem exec_all {i : Instr} (h : P [] s) (e : Machine.exec i s = .next t)
    (hplace : ∀ p, i = .placeTag p → s.port.phase ≠ .resetPending → P [] t)
    (hmarker : ∀ (u : State) b, P [] u → P [] { u with port := { u.port with marker := b } })
    (hcold : ∀ pins, P [] (State.cold pins s.pending)) (hwarm : ∀ u pins, P [] u → P Ix4.all (u.warmBlocks pins)) : P [] t := by
  by_cases hi : i.resets s
  · rcases exec_of_resets hi e with ⟨pins, -, rfl⟩ | ⟨u, kind, pins, hu, rfl⟩
    · exact hcold pins
    · refine K.warmReset kind pins (hwarm u pins ?_)
      rcases hu with rfl | ⟨c, rfl⟩
      · exact h
      · exact K.link _ h
  · have hphase : i.transacts → s.port.phase ≠ .resetPending := fun ht hp => hi (.inr (.inr ⟨hp, .inl ht⟩))
    cases i with
    | placeTag p => exact hplace p rfl (hphase (.inl rfl))
    | writeMarker p => exact K.serve (hphase (.inl rfl)) h e fun _ u hu => hmarker u _ hu
    | _ => exact K.exec hi nofun nofun h e

end KeptCmd

/-! ## The step -/

/-- A step is a command on the state with the rest of the queue, or a millisecond. -/
theorem step_cases {s t : State} (e : step s = .next t) :
    (∃ i rest, s.pending = i :: rest ∧ exec i { s with pending := rest } = .next t) ∨ t = s.tick := by
  unfold step at e
  split at e
  · next i rest hq => exact .inl ⟨i, rest, hq, e⟩
  · cases e
    exact .inr rfl

/-- Settles O1. -/
theorem stepRunsTheFrontCommand : Obligations.StepRunsTheFrontCommand := by
  intro i rest s hq
  rw [step, hq]

/-- Settles O2: the tick of each record is the one that the statement writes out. -/
theorem idleStepIsOneMillisecond : Obligations.IdleStepIsOneMillisecond := by
  intro s hq
  have hstep : step s = .next s.tick := by simp [step, hq]
  exact hstep

theorem KeptAll.step {P : State → Prop} (K : KeptAll P) (hq : ∀ s q, P s → P { s with pending := q }) {s t : State} (h : P s)
    (e : Machine.step s = .next t) : P t := by
  rcases step_cases e with ⟨i, rest, _, e⟩ | rfl
  · exact K.exec i (hq s rest h) e
  · exact K.tick s h

end Sys2Proof.Machine

/-! What every step keeps of the invariants of Safety.lean, each by itself: the attention line and the pending set, the backup trip line,
the tag table, the orders in flight, the running sums and the shot counters. -/

namespace Sys2Proof.Machine

/-! ## What is kept by a block alone -/

/-- A property of the Attention Unit alone is kept where its own operations keep it. -/
theorem KeptAll.ofAttention {q : Attention → Prop} (hgive : ∀ a sc d, q a → q (a.give sc d))
    (htimers : ∀ a p x t n, q a → q { a with period := p, action := x, timer := t, expiries := n })
    (hjudged : ∀ a b : Attention, (a.ordered = true → b.ordered = true) → q a → q b.judge) (hcold : q coldAttention)
    (hwarm : ∀ a, q a → q a.warm) : KeptAll fun s => q s.att :=
  have K : KeptDerive fun s => q s.att :=
    { seq := fun _ _ _ _ h => h
      hunt := fun _ _ _ h => h
      devices := fun _ _ _ h => h
      give := fun s sc d h => hgive s.att sc d h
      cond := fun _ _ h => h }
  { K with
    port := fun _ _ h => h
    timers := fun s p x t n h => htimers s.att p x t n h
    judged := fun s b hb h => hjudged s.att b hb h
    contacts := fun _ _ h => h
    sample := fun _ _ _ h => h
    engine := fun _ _ _ _ h => h
    store := fun _ _ _ h => h
    cal := fun _ _ h => h
    perms := fun _ _ _ h => h
    sections := fun _ _ _ h => h
    fewerTags := fun _ _ h => h
    sameTags := fun _ _ _ h => h
    place := fun s x _ h => K.derive (s := { s with tags := s.tags ++ [x] }) x.feeder h
    link := fun _ _ _ h => h
    tick := fun s h => htimers s.att _ _ s.att.timer.tick _ h
    cold := fun _ _ => hcold
    warm := fun s _ h => hwarm s.att h }

/-! ## The attention line and the pending set (O5, O7) -/

theorem Attention.give_line (a : Attention) (sc : Scope) (d : Detail) (h : a.line = a.wantsLine) :
    (a.give sc d).line = (a.give sc d).wantsLine := by
  unfold Attention.give
  split
  · exact h
  · rfl

theorem keptAll_line : KeptAll fun s => s.att.line = s.att.wantsLine :=
  KeptAll.ofAttention (q := fun a => a.line = a.wantsLine) (fun a sc d h => a.give_line sc d h) (fun _ _ _ _ _ h => h)
    (fun _ _ _ _ => rfl) rfl (fun _ _ => rfl)

/-- A notice that enters an ordered pending set leaves it ordered, behind whatever all of them stand behind. -/
theorem enterNotice_ordered (sc : Scope) (d : Detail) (ns : List Notice) (h : (ns.map Notice.key).Pairwise (· < ·)) :
    ((enterNotice sc d ns).map Notice.key).Pairwise (· < ·)
      ∧ ∀ n, n < noticeKey d.kind sc → (∀ k ∈ ns.map Notice.key, n < k) → ∀ k ∈ (enterNotice sc d ns).map Notice.key, n < k := by
  induction ns with
  | nil => exact ⟨by simp [enterNotice], fun n hn _ k hk => by simp_all [enterNotice, Notice.key]⟩
  | cons x rest ih =>
    obtain ⟨hx, hrest⟩ := List.pairwise_cons.mp h
    obtain ⟨hs, hlow⟩ := ih hrest
    unfold enterNotice
    split
    · next hlt =>
      refine ⟨List.pairwise_cons.mpr ⟨?_, h⟩, fun n hn hall k hk => ?_⟩
      · intro k hk
        rcases List.mem_cons.mp hk with rfl | hk
        · exact hlt
        · exact Nat.lt_trans hlt (hx k hk)
      · rcases List.mem_cons.mp hk with rfl | hk
        · exact hn
        · exact hall k hk
    · split
      · next hkey =>
        have e : (⟨sc, d, min 255 (x.repeats + 1)⟩ : Notice).key = x.key := hkey
        rw [List.map_cons, e]
        exact ⟨h, fun n _ hall => hall⟩
      · next hge hne =>
        refine ⟨List.pairwise_cons.mpr ⟨hlow _ (by omega) hx, hs⟩, fun n hn hall k hk => ?_⟩
        rcases List.mem_cons.mp hk with rfl | hk
        · exact hall _ (List.mem_cons_self ..)
        · exact hlow n hn (fun j hj => hall j (List.mem_cons_of_mem _ hj)) k hk

theorem Attention.give_ordered (a : Attention) (sc : Scope) (d : Detail) (h : a.ordered = true) : (a.give sc d).ordered = true := by
  unfold Attention.give
  split
  · exact h
  · exact decide_eq_true (enterNotice_ordered sc d a.notices (of_decide_eq_true h)).1

theorem keptAll_notices : KeptAll fun s => s.att.ordered = true :=
  KeptAll.ofAttention (q := fun a => a.ordered = true) (fun a sc d h => a.give_ordered sc d h) (fun _ _ _ _ _ h => h)
    (fun _ _ hb h => hb h) rfl (fun _ _ => rfl)

/-! ## The backup trip line (O5) -/

theorem anyFailed_tick (q : Four Seq) : anyFailed (q.map Seq.tick) = anyFailed q := rfl

/-- After a reset no feeder is in BREAKER_FAIL (03 R67, R68). -/
theorem anyFailed_reset (c : Four Contacts) (x : LockoutCause) : anyFailed (c.map (resetSeq x)) = false := by
  rw [Bool.eq_false_iff]
  intro h
  obtain ⟨f, hf⟩ := (anyFailed_iff _).mp h
  rw [Four.get_map] at hf
  revert hf
  unfold resetSeq
  dsimp only
  split <;> exact nofun

theorem keptAll_backup : KeptAll fun s => s.backup = anyFailed s.seq :=
  have K : KeptDerive fun s => s.backup = anyFailed s.seq :=
    { seq := fun _ _ _ _ _ => rfl
      hunt := fun _ _ _ h => h
      devices := fun _ _ _ h => h
      give := fun _ _ _ h => h
      cond := fun _ _ h => h }
  { K with
    port := fun _ _ h => h
    timers := fun _ _ _ _ _ h => h
    judged := fun _ _ _ h => h
    contacts := fun _ _ h => h
    sample := fun _ _ _ h => h
    engine := fun _ _ _ _ h => h
    store := fun _ _ _ h => h
    cal := fun _ _ h => h
    perms := fun _ _ _ h => h
    sections := fun _ _ _ h => h
    fewerTags := fun _ _ h => h
    sameTags := fun _ _ _ h => h
    place := fun s x _ h => K.derive (s := { s with tags := s.tags ++ [x] }) x.feeder h
    link := fun _ _ _ h => h
    tick := fun s h => h.trans (anyFailed_tick s.seq).symm
    cold := fun pins _ => (anyFailed_reset pins.contacts .coldReset).symm
    warm := fun _ pins _ => (anyFailed_reset pins.contacts .warmReset).symm }

/-- Settles O5: every operation that writes the pending set, a level, the mask or a sequencer record settles the line with it. -/
theorem linesFollowNoticesAndFailures : Obligations.LinesFollowNoticesAndFailures := by
  intro s t e
  refine ⟨fun h => ?_, fun h => ?_⟩
  · exact decide_eq_true (keptAll_line.step (fun _ _ h => h) (of_decide_eq_true h) e)
  · exact decide_eq_true (keptAll_backup.step (fun _ _ h => h) (of_decide_eq_true h) e)

/-! ## The tag table (O7) -/

/-- A tag that passes its checks finds a place, and bears a number that no tag bears (04 R72). -/
theorem State.placeCheck_room {s : State} {x : Tag} (h : s.placeCheck x = none) :
    s.tags.length < tagCapacity ∧ x.number ∉ s.tags.map (·.number) := by
  unfold State.placeCheck at h
  split at h
  · cases h
  · next hfull =>
    split at h
    · cases h
    · next hfind =>
      refine ⟨Nat.lt_of_not_le hfull, fun hmem => hfind ?_⟩
      obtain ⟨u, hu, hnum⟩ := List.mem_map.mp hmem
      exact List.find?_isSome.mpr ⟨u, hu, decide_eq_true hnum⟩

theorem keptAll_tags : KeptAll fun s => s.tags.length ≤ tagCapacity ∧ (s.tags.map (·.number)).Nodup :=
  have K : KeptDerive fun s => s.tags.length ≤ tagCapacity ∧ (s.tags.map (·.number)).Nodup :=
    { seq := fun _ _ _ _ h => h
      hunt := fun _ _ _ h => h
      devices := fun _ _ _ h => h
      give := fun _ _ _ h => h
      cond := fun _ _ h => h }
  { K with
    port := fun _ _ h => h
    timers := fun _ _ _ _ _ h => h
    judged := fun _ _ _ h => h
    contacts := fun _ _ h => h
    sample := fun _ _ _ h => h
    engine := fun _ _ _ _ h => h
    store := fun _ _ _ h => h
    cal := fun _ _ h => h
    perms := fun _ _ _ h => h
    sections := fun _ _ _ h => h
    fewerTags := fun _ _ h => ⟨Nat.le_trans (List.length_filter_le ..) h.1, h.2.sublist (List.filter_sublist.map _)⟩
    sameTags := fun s g hg h => by
      have hnumbers : (s.tags.map g).map (·.number) = s.tags.map (·.number) := by
        rw [List.map_map]
        exact List.map_congr_left fun x _ => (hg x).1
      rw [List.length_map, hnumbers]
      exact h
    place := fun s x hx h => by
      obtain ⟨hfull, hnumber⟩ := State.placeCheck_room hx
      refine K.derive x.feeder ⟨?_, ?_⟩
      · change (s.tags ++ [x]).length ≤ tagCapacity
        rw [List.length_append]
        exact hfull
      · change ((s.tags ++ [x]).map (·.number)).Nodup
        rw [List.map_append, List.nodup_append]
        refine ⟨h.2, List.pairwise_singleton .., fun n hn m hm => ?_⟩
        obtain rfl := List.mem_singleton.mp hm
        rintro rfl
        exact hnumber hn
    link := fun _ _ _ h => h
    tick := fun _ h => h
    cold := fun _ _ => ⟨Nat.zero_le _, List.nodup_nil⟩
    warm := fun _ _ h => h }

/-! ## The orders in flight (O7) -/

theorem keptAll_orders : KeptAll fun s => s.link.sound :=
  have K : KeptDerive fun s => s.link.sound :=
    { seq := fun _ _ _ _ h => h
      hunt := fun _ _ _ h => h
      devices := fun s g hg h =>
        Link.sound_map (l := s.link) (fun p => (p.1, g p.1 p.2)) (fun _ => rfl) (fun p _ => by simp [hg]) rfl rfl h
      give := fun _ _ _ h => h
      cond := fun _ _ h => h }
  { K with
    port := fun _ _ h => h
    timers := fun _ _ _ _ _ h => h
    judged := fun _ _ _ h => h
    contacts := fun _ _ h => h
    sample := fun _ _ _ h => h
    engine := fun _ _ _ _ h => h
    store := fun _ _ _ h => h
    cal := fun _ _ h => h
    perms := fun _ _ _ h => h
    sections := fun _ _ _ h => h
    fewerTags := fun _ _ h => h
    sameTags := fun _ _ _ h => h
    place := fun s x _ h => K.derive (s := { s with tags := s.tags ++ [x] }) x.feeder h
    link := fun _ _ hl h => hl h
    tick := fun s h => Link.sound_tick s.link h
    cold := fun pins _ => ⟨rfl, Nat.zero_le _, (by decide : 2 ≤ 4)⟩
    warm := fun s pins h =>
      Link.sound_clear { s.link with sending := none, carrier := pins.carrier } (Link.sound_same (l := s.link) rfl rfl h) }

theorem State.ordersSound_iff (s : State) : s.ordersSound = true ↔ s.link.sound := by
  simp [State.ordersSound, Link.sound]

/-- Settles O7, table by table. -/
theorem tablesStaySound : Obligations.TablesStaySound := by
  intro s t e
  refine ⟨fun h => ?_, fun h => ?_, fun h => ?_⟩
  · exact decide_eq_true (keptAll_tags.step (fun _ _ h => h) (of_decide_eq_true h) e)
  · rw [State.ordersSound_iff] at h ⊢
    exact keptAll_orders.step (fun _ _ h => h) h e
  · exact keptAll_notices.step (fun _ _ h => h) h e

/-! ## The running sums (O8) -/

/-- The progress of every element of every feeder lies within its bound. -/
def State.sumsBounded (s : State) : Prop := ∀ f e, ((s.engine.get f).elements.get e).progress ≤ e.most

theorem Element.mem_all (e : Element) : e ∈ Element.all := by cases e <;> decide

theorem State.sumsSound_iff (s : State) : s.sumsSound = true ↔ s.sumsBounded := by
  simp only [State.sumsSound, List.all_eq_true, decide_eq_true_eq]
  exact ⟨fun h f e => h f (Ix4.mem_all f) e (Element.mem_all e), fun h f _ e _ => h f e⟩

theorem sumsBounded_cold {s : State} (h : s.engine = Four.fill coldEngine) : s.sumsBounded := by
  intro f e
  rw [h, Four.get_fill]
  cases e <;> decide

theorem keptAll_sums : KeptAll State.sumsBounded :=
  have K : KeptDerive State.sumsBounded :=
    { seq := fun _ _ _ _ h => h
      hunt := fun _ _ _ h => h
      devices := fun _ _ _ h => h
      give := fun _ _ _ h => h
      cond := fun _ _ h => h }
  { K with
    port := fun _ _ h => h
    timers := fun _ _ _ _ _ h => h
    judged := fun _ _ _ h => h
    contacts := fun _ _ h => h
    sample := fun _ _ _ h => h
    engine := fun s f x hx h g e => by
      rw [State.putEngine_engine, Four.get_set]
      split
      · next hg =>
        subst hg
        exact (hx e).elim id fun hle => Nat.le_trans hle (h _ e)
      · exact h g e
    store := fun _ _ _ h => h
    cal := fun _ _ h => h
    perms := fun _ _ _ h => h
    sections := fun _ _ _ h => h
    fewerTags := fun _ _ h => h
    sameTags := fun _ _ _ h => h
    place := fun s x _ h => K.derive (s := { s with tags := s.tags ++ [x] }) x.feeder h
    link := fun _ _ _ h => h
    tick := fun _ h => h
    cold := fun _ _ => sumsBounded_cold rfl
    warm := fun _ _ _ => sumsBounded_cold rfl }

/-- Settles O8. -/
theorem sumsStayWithinBounds : Obligations.SumsStayWithinBounds := by
  intro s t h e
  rw [State.sumsSound_iff] at h ⊢
  exact keptAll_sums.step (fun _ _ h => h) h e

/-! ## The shot counters (O10) -/

/-- The store's shot counts lie in 0 to 4, and so do the counters. -/
def State.shotsBounded (s : State) : Prop := s.store.shotsSound = true ∧ ∀ f, (s.seq.get f).shots ≤ 4

theorem State.shotsSound_iff (s : State) : s.shotsSound = true ↔ s.shotsBounded := by
  simp only [State.shotsSound, State.shotsBounded, Bool.and_eq_true, List.all_eq_true, decide_eq_true_eq]
  exact and_congr_right fun _ => ⟨fun h f => h f (Ix4.mem_all f), fun h f _ => h f⟩

/-- The active group is a VALID one or the safe group: its shot count is at most 4 (02 R27, R31). -/
theorem State.activeGroup_shotCount {s : State} (h : s.store.shotsSound = true) (f : Feeder) : (s.activeGroup f).shotCount ≤ 4 := by
  unfold State.activeGroup
  split
  · next g _ =>
    cases hc : ((s.store.groups.get f).get g).validContent with
    | none => decide
    | some c => exact ((Store.shotsSound_iff _).mp h).1 f g c hc
  · decide

theorem coldStore_shotsSound : coldStore.shotsSound = true := by decide

theorem Store.shotsSound_warm {t : Store} (h : t.shotsSound = true) : t.warm.shotsSound = true :=
  Store.shotsSound_staging .closed 1 (fun _ _ _ e => by cases e) h

theorem keptAll_shots : KeptAll State.shotsBounded :=
  have reset (c : Four Contacts) (x : LockoutCause) (f : Feeder) : ((c.map (resetSeq x)).get f).shots ≤ 4 := by
    rw [Four.get_map]
    exact Nat.zero_le _
  have K : KeptDerive State.shotsBounded :=
    { seq := fun s f r hr h => ⟨h.1, fun g => by
        rw [State.putSeq_seq, Four.get_set]
        split
        · exact hr.2.elim (fun hle => Nat.le_trans hle (h.2 f)) fun hle => Nat.le_trans hle (State.activeGroup_shotCount h.1 f)
        · exact h.2 g⟩
      hunt := fun _ _ _ h => h
      devices := fun _ _ _ h => h
      give := fun _ _ _ h => h
      cond := fun _ _ h => h }
  { K with
    port := fun _ _ h => h
    timers := fun _ _ _ _ _ h => h
    judged := fun _ _ _ h => h
    contacts := fun _ _ h => h
    sample := fun _ _ _ h => h
    engine := fun _ _ _ _ h => h
    store := fun _ _ ht h => ⟨ht h.1, h.2⟩
    cal := fun _ _ h => h
    perms := fun _ _ _ h => h
    sections := fun _ _ _ h => h
    fewerTags := fun _ _ h => h
    sameTags := fun _ _ _ h => h
    place := fun s x _ h => K.derive (s := { s with tags := s.tags ++ [x] }) x.feeder h
    link := fun _ _ _ h => h
    tick := fun s h => ⟨h.1, fun f => by
      change ((s.seq.map Seq.tick).get f).shots ≤ 4
      rw [Four.get_map]
      exact h.2 f⟩
    cold := fun pins _ => ⟨coldStore_shotsSound, reset pins.contacts .coldReset⟩
    warm := fun s pins h => ⟨Store.shotsSound_warm h.1, reset pins.contacts .warmReset⟩ }

/-- Settles O10: a counter rises only as a reclose of the active group's shots, whose count the store bounds. -/
theorem shotsNeverExceedFour : Obligations.ShotsNeverExceedFour := by
  intro s t h e
  rw [State.shotsSound_iff] at h ⊢
  exact keptAll_shots.step (fun _ _ h => h) h e

end Sys2Proof.Machine

/-! What every command keeps of the queue, the Feeder Condition records, the bond of hunt and sequencer, the close drives and the
latch. -/

namespace Sys2Proof.Machine

/-- What a warm reset's blocks leave as they were. -/
theorem State.warmBlocks_frame (s : State) (pins : Pins) : (s.warmBlocks pins).pending = s.pending
    ∧ (s.warmBlocks pins).tags = s.tags ∧ (s.warmBlocks pins).cond = s.cond ∧ (s.warmBlocks pins).port = s.port :=
  State.warmHunts_induct (P := fun u => u.pending = s.pending ∧ u.tags = s.tags ∧ u.cond = s.cond ∧ u.port = s.port)
    (fun u f hu =>
      have h := (Touches.refl f u).warmHunt
      ⟨h.pending.trans hu.1, h.tags.trans hu.2.1, h.cond.trans hu.2.2.1, h.port.trans hu.2.2.2⟩)
    (s := s) ⟨rfl, rfl, rfl, rfl⟩

/-! ## The queue (O3) -/

theorem keptCmd_pending (q : List Instr) : KeptCmd fun _ s => s.pending = q where
  touches h _ hp := h.pending.trans hp
  writes h _ hp := h.pending.trans hp
  cond _ hp := hp
  mono _ hp := hp

/-- Every command ends in a next state (log 32). -/
theorem exec_ends (i : Instr) (s : State) : ∃ t, exec i s = .next t := by
  cases i with
  | intervalReport b c => 
    simp only [exec, execIntervalReport]
    split <;> exact ⟨_, rfl⟩
  | replyFrame b c =>
    simp only [exec, execReplyFrame]
    split <;> exact ⟨_, rfl⟩
  | commitCompletion c =>
    simp only [exec, execCommitCompletion]
    split <;> exact ⟨_, rfl⟩
  | warmReset w pins => cases w <;> exact ⟨_, rfl⟩
  | _ => exact ⟨_, rfl⟩

/-- Settles O3. -/
theorem commandsEndAndKeepTheQueue : Obligations.CommandsEndAndKeepTheQueue := by
  intro i s
  obtain ⟨t, e⟩ := exec_ends i s
  have K := keptCmd_pending s.pending
  refine ⟨t, e, K.exec_all (s := s) rfl e ?_ (fun _ _ h => h) (fun _ => rfl) fun u pins h => (u.warmBlocks_frame pins).1.trans h⟩
  rintro p rfl hp
  exact K.placeTag hp rfl e fun _ _ _ h => h

/-! ## The Feeder Condition records (O6) -/

/-- No two tags bear one number, and every record but those of some feeders is as derived. -/
def State.derivedBut (D : List Feeder) (s : State) : Prop := s.numbersApart ∧ ∀ f, f ∉ D → s.cond.get f = s.conditionOf f

theorem State.condSound_iff (s : State) : s.condSound = true ↔ ∀ f, s.cond.get f = s.conditionOf f := by
  simp [State.condSound, Ix4.mem_all]

/-- What a derivation reads, an operation on a breaker or a hunt leaves. -/
theorem Touches.conditionOf {f : Feeder} {s t : State} (h : Touches f s t) (g : Feeder) : t.conditionOf g = s.conditionOf g := by
  refine SameInputs.conditionOf ⟨?_, ?_, ?_, h.latch, ?_, ?_⟩
  · simp only [State.level, State.district, State.constants, h.cal, h.store]
  · simp only [State.constants, h.store]
  · rw [h.store]
  · rw [h.inputs]
  · simp only [State.tagShapes, h.tags]

theorem keptCmd_derived : KeptCmd State.derivedBut where
  touches h _ hs := ⟨by unfold State.numbersApart; rw [h.tags]; exact hs.1, fun g hg => by rw [h.cond, h.conditionOf]; exact hs.2 g hg⟩
  writes hw hc hs := ⟨hw.numbersApart hs.1, fun g hg => by
    rw [List.mem_append, not_or] at hg
    rw [hw.cond, hc hs.1 g hg.2]
    exact hs.2 g hg.1⟩
  cond {D s} f hs := ⟨hs.1, fun g hg => by
    have hderived : ({ s with cond := s.cond.set f (s.conditionOf f) } : State).conditionOf g = s.conditionOf g := rfl
    rw [hderived]
    change (s.cond.set f (s.conditionOf f)).get g = s.conditionOf g
    rw [Four.get_set]
    split
    · next h => rw [h]
    · next h => exact hs.2 g fun hD => hg (List.mem_filter.mpr ⟨hD, decide_eq_true h⟩)⟩
  mono hDE hs := ⟨hs.1, fun g hg => hs.2 g fun hD => hg (hDE hD)⟩

/-- A tag placed leaves the record of its own feeder stale alone. -/
theorem State.derivedBut_place {u : State} {x : Tag} (hx : u.placeCheck x = none) (hu : u.derivedBut []) :
    ({ u with tags := u.tags ++ [x] } : State).derivedBut [x.feeder] := by
  refine ⟨?_, fun g hg => ?_⟩
  · change ((u.tags ++ [x]).map (·.number)).Nodup
    rw [List.map_append, List.nodup_append]
    refine ⟨hu.1, List.pairwise_singleton .., fun n hn m hm => ?_⟩
    obtain rfl := List.mem_singleton.mp hm
    rintro rfl
    exact (State.placeCheck_room hx).2 hn
  · refine (hu.2 g List.not_mem_nil).trans (SameInputs.conditionOf (s := u) (t := { u with tags := u.tags ++ [x] })
      ⟨rfl, rfl, rfl, rfl, rfl, ?_⟩).symm
    have hother : x.feeder ≠ g := fun e => hg (List.mem_singleton.mpr e.symm)
    simp [State.tagShapes, List.filter_append, hother]

theorem State.cold_conditionOf (pins : Pins) (q : List Instr) (f : Feeder) : (State.cold pins q).conditionOf f = coldCondition := by
  cases f <;> rfl

/-- Settles O6. -/
theorem conditionsStayDerived : Obligations.ConditionsStayDerived := by
  intro s t htags hs e
  have apart : s.numbersApart := (of_decide_eq_true htags).2
  rw [State.condSound_iff] at hs ⊢
  rcases step_cases e with ⟨i, rest, _, e⟩ | rfl
  · have start : ({ s with pending := rest } : State).derivedBut [] := ⟨apart, fun f _ => hs f⟩
    have done : t.derivedBut [] := by
      refine keptCmd_derived.exec_all start e ?_ (fun _ _ h => h) (fun pins => ?_) fun u pins h => ?_
      · rintro p rfl hp
        exact keptCmd_derived.placeTag hp start e fun _ _ hx hu => State.derivedBut_place hx hu
      · refine ⟨List.nodup_nil, fun f _ => ?_⟩
        rw [State.cold_conditionOf]
        exact Four.get_fill _ _
      · obtain ⟨_, htags, _, _⟩ := u.warmBlocks_frame pins
        refine ⟨?_, fun f hf => absurd (Ix4.mem_all f) hf⟩
        unfold State.numbersApart
        rw [htags]
        exact h.1
    exact fun f => done.2 f List.not_mem_nil
  · exact hs

/-! ## Hunts and the sequencer (O9) -/

theorem keptCmd_bonded : KeptCmd fun _ s => ∀ f, s.bonded f where
  touches {_ f _ _} h hb hs g := by
    by_cases hg : g = f
    · subst hg
      exact hb (hs g)
    · exact State.bonded_congr (h.huntOther g hg) (by rw [h.seqOther g hg]) (hs g)
  writes h _ hs g := State.bonded_congr (by rw [h.hunts]) (by rw [h.seq]) (hs g)
  cond _ hs := hs
  mono _ hs := hs

theorem resetSeq_hunting (x : LockoutCause) (c : Contacts) : (resetSeq x c).state.hunting = false := by
  unfold resetSeq
  dsimp only
  split <;> rfl

theorem State.bonded_cold (pins : Pins) (q : List Instr) (f : Feeder) : (State.cold pins q).bonded f := by
  refine State.bonded_out (State.huntRuns_of_none (Four.get_fill _ _)) ?_
  change ((pins.contacts.map (resetSeq .coldReset)).get f).state.hunting = false
  rw [Four.get_map]
  exact resetSeq_hunting _ _

/-- A warm reset leaves no hunt running on a feeder it has come to (08 R162). -/
theorem State.warmHunt_ends (s : State) (f : Feeder) : (s.warmHunt f).huntRuns f = false := by
  unfold State.warmHunt
  split
  · next x hx =>
    split
    · next hfinal => simp [State.huntRuns_of_get hx, hfinal]
    · rw [State.finishHunt, State.huntRuns_putHunt_some]
      rfl
  · next hx => exact State.huntRuns_of_none hx

theorem State.warmHunt_keepsEnded {s : State} {f : Feeder} (g : Feeder) (h : s.huntRuns f = false) : (s.warmHunt g).huntRuns f = false := by
  by_cases hg : f = g
  · exact hg ▸ s.warmHunt_ends g
  · unfold State.huntRuns at *
    rw [((Touches.refl g s).warmHunt).huntOther f hg]
    exact h

theorem State.warmBlocks_ended (s : State) (pins : Pins) (f : Feeder) : (s.warmBlocks pins).huntRuns f = false := by
  have keep {fs : List Feeder} : ∀ {u : State}, u.huntRuns f = false → (fs.foldl State.warmHunt u).huntRuns f = false := by
    induction fs with
    | nil => exact id
    | cons g rest ih => exact fun hu => ih (State.warmHunt_keepsEnded g hu)
  have all {fs : List Feeder} (hf : f ∈ fs) : ∀ u : State, (fs.foldl State.warmHunt u).huntRuns f = false := by
    induction fs with
    | nil => cases hf
    | cons g rest ih =>
      intro u
      rcases List.mem_cons.mp hf with rfl | hf
      · exact keep (fs := rest) (u.warmHunt_ends f)
      · exact ih hf _
  exact all (Ix4.mem_all f) s

theorem State.bonded_warmBlocks (s : State) (pins : Pins) (f : Feeder) : (s.warmBlocks pins).bonded f := by
  refine State.bonded_out (s.warmBlocks_ended pins f) ?_
  change ((pins.contacts.map (resetSeq .warmReset)).get f).state.hunting = false
  rw [Four.get_map]
  exact resetSeq_hunting _ _

theorem State.bonded_tick {s : State} {f : Feeder} (h : s.bonded f) : s.tick.bonded f := by
  have hseq : (s.tick.seq.get f).state = (s.seq.get f).state := by
    change ((s.seq.map Seq.tick).get f).state = _
    rw [Four.get_map]
    rfl
  have hruns : s.tick.huntRuns f = s.huntRuns f := by
    have hget : s.tick.hunts.get f = (s.hunts.get f).map Hunt.tick := Four.get_map _ _ _
    unfold State.huntRuns
    rw [hget]
    cases s.hunts.get f <;> rfl
  rw [State.bonded, hseq, hruns]
  exact h

/-- Settles O9. -/
theorem huntsRunWhileInHunt : Obligations.HuntsRunWhileInHunt := by
  intro s t hs e
  rw [State.huntsSound_iff] at hs ⊢
  rcases step_cases e with ⟨i, rest, _, e⟩ | rfl
  · have start : ∀ f, ({ s with pending := rest } : State).bonded f := hs
    refine keptCmd_bonded.exec_all start e ?_ (fun _ _ h => h) (fun pins f => State.bonded_cold pins _ f) fun u pins _ =>
      u.bonded_warmBlocks pins
    rintro p rfl hp
    exact keptCmd_bonded.placeTag hp start e fun _ _ _ hu => hu
  · exact fun f => State.bonded_tick (hs f)

/-! ## No close under a NO_CLOSE tag (O12) -/

/-- A feeder's close drive is not asserted under a NO_CLOSE tag, which its cause record names. -/
def State.closeGuarded (f : Feeder) (s : State) : Prop :=
  ((s.seq.get f).closeDrive = true → s.tagged f .noClose = false) ∧ (s.tagged f .noClose = true → (s.causes f).tagNoClose = true)

theorem State.tagged_of_tags {s t : State} (h : t.tags = s.tags) (f : Feeder) (k : TagKind) : t.tagged f k = s.tagged f k := by
  rw [State.tagged, State.tagged, h]

/-- A tag of a table that kept only what another held was in that one. -/
theorem Writes.tagged {s t : State} (h : Writes s t) {f : Feeder} {k : TagKind} (ht : t.tagged f k = true) : s.tagged f k = true := by
  obtain ⟨x, hx, hxk⟩ := List.any_eq_true.mp ht
  have hmem := h.tags.subset (List.mem_map_of_mem hx)
  obtain ⟨y, hy, e⟩ := List.mem_map.mp hmem
  simp only [Prod.mk.injEq] at e
  refine List.any_eq_true.mpr ⟨y, hy, ?_⟩
  rw [e.2.1, e.2.2]
  exact hxk

theorem keptCmd_closeGuarded (f : Feeder) : KeptCmd fun _ s => s.closeGuarded f where
  touches {_ g s t} h _ hs := by
    have htagged := State.tagged_of_tags h.tags f .noClose
    have hcauses := h.causes f
    unfold State.closeGuarded
    rw [htagged, hcauses]
    refine ⟨fun hclose => ?_, hs.2⟩
    by_cases hg : f = g
    · subst hg
      rcases h.close hclose with hold | hno
      · exact hs.1 hold
      · exact Bool.eq_false_iff.mpr fun ht => Bool.false_ne_true (hno.symm.trans (hs.2 ht))
    · exact hs.1 (h.seqOther f hg ▸ hclose)
  writes {_ _ s t} h _ hs := by
    have hcauses : t.causes f = s.causes f := by rw [State.causes, State.causes, h.cond]
    unfold State.closeGuarded
    rw [h.seq, hcauses]
    exact ⟨fun hclose => Bool.eq_false_iff.mpr fun ht => Bool.false_ne_true ((hs.1 hclose).symm.trans (h.tagged ht)),
      fun ht => hs.2 (h.tagged ht)⟩
  cond {_ s} g hs := by
    refine ⟨hs.1, fun ht => ?_⟩
    change ((s.cond.set g (s.conditionOf g)).get f).causes.tagNoClose = true
    rw [Four.get_set]
    split
    · next h => rw [← h]; exact ht
    · exact hs.2 ht
  mono _ hs := hs

/-- A rule that leaves what is asked of it leaves it so as its command ends, the frame counted and the response given. -/
theorem serve_leaves {α : Type} {n : Nat} {reader : Payload → Option α} {act : α → State → State × Reply} {p : Payload} {s t : State}
    {Q : State → Prop} (hp : s.port.phase ≠ .resetPending) (e : serve n reader act p s = .next t)
    (hport : ∀ u q, Q u → Q { u with port := q }) (hs : Q s) (hr : Q s.restartSupervision)
    (ha : ∀ a, Q (act a s.restartSupervision).1) : Q t := by
  cases e
  cases hphase : s.port.phase with
  | ready =>
    rw [State.endTransaction_ready _ hphase]
    unfold dispatch
    split
    · exact hport _ _ hr
    · exact hport _ _ (ha _)
  | resetPending => exact absurd hphase hp
  | cut =>
    rw [State.endTransaction_cut _ hphase]
    exact hport _ _ hs

/-- PLACE_TAG asserts no close drive on a feeder that a NO_CLOSE tag names: the new tag's cause stands before the derivation hands
on. -/
theorem placeTag_guards {f : Feeder} {p : Payload} {s t : State} (hp : s.port.phase ≠ .resetPending)
    (e : exec (.placeTag p) s = .next t) (hoff : (s.seq.get f).closeDrive = false) (hs : s.closeGuarded f) : t.closeGuarded f := by
  refine serve_leaves (Q := fun u => u.closeGuarded f) hp e (fun _ _ h => h) hs hs fun a => ?_
  unfold placeTag
  split
  · exact hs
  · next x _ =>
    split
    · exact hs
    · let u : State := { s.restartSupervision with tags := s.tags ++ [x] }
      have settled : ({ u with cond := u.cond.set x.feeder (u.conditionOf x.feeder) } : State).closeGuarded f := by
        refine ⟨fun hclose => absurd (hoff.symm.trans hclose) Bool.false_ne_true, fun ht => ?_⟩
        change ((u.cond.set x.feeder (u.conditionOf x.feeder)).get f).causes.tagNoClose = true
        rw [Four.get_set]
        split
        · next h => rw [← h]; exact ht
        · next h =>
          refine hs.2 ?_
          have hother : x.feeder ≠ f := fun e => h e.symm
          have happend : u.tagged f .noClose = true := ht
          simpa [u, State.tagged, List.any_append, hother] using happend
      exact (keptCmd_closeGuarded f).touches (D := []) ((Touches.refl x.feeder _).handOn _ _) (fun hb => hb.handOn _ _) settled

/-- Settles O12. -/
theorem noCloseUnderANoCloseTag : Obligations.NoCloseUnderANoCloseTag := by
  intro i s t f hcond e hoff ht
  rw [State.condSound_iff] at hcond
  have K := keptCmd_closeGuarded f
  have start : s.closeGuarded f := by
    refine ⟨fun hclose => absurd (hoff.symm.trans hclose) Bool.false_ne_true, fun h => ?_⟩
    rw [State.causes, hcond f]
    exact h
  have done : t.closeGuarded f := by
    refine K.exec_all (s := s) start e ?_ (fun _ _ h => h) (fun pins => ⟨fun _ => rfl, nofun⟩) fun u pins h => ?_
    · rintro p rfl hp
      exact placeTag_guards hp e hoff start
    · obtain ⟨_, htags, hcond, _⟩ := u.warmBlocks_frame pins
      refine ⟨fun hclose => ?_, fun ht => ?_⟩
      · have hreset : (((u.warmBlocks pins).seq).get f).closeDrive = false := by
          change ((pins.contacts.map (resetSeq .warmReset)).get f).closeDrive = false
          rw [Four.get_map]
          rfl
        exact absurd (hreset.symm.trans hclose) Bool.false_ne_true
      · rw [State.tagged_of_tags htags] at ht
        rw [State.causes, hcond]
        exact h.2 ht
  exact Bool.eq_false_iff.mpr fun hclose => Bool.false_ne_true ((done.1 hclose).symm.trans ht)

/-! ## The fallback latch (O13) -/

theorem keptCmd_latch : KeptCmd fun _ s => s.latch = true where
  touches h _ hs := h.latch.trans hs
  writes h _ hs := h.latch hs
  cond _ hs := hs
  mono _ hs := hs

/-- Settles O13: a command that does not reset the part keeps a latch that is set. -/
theorem latchLeavesOnlyByReset : Obligations.LatchLeavesOnlyByReset := by
  intro i s t hs e ht
  have K := keptCmd_latch
  have resets : i.resets s := by
    refine Classical.byContradiction fun hi => Bool.false_ne_true (ht.symm.trans ?_)
    have hphase : i.transacts → s.port.phase ≠ .resetPending := fun hx hp => hi (.inr (.inr ⟨hp, .inl hx⟩))
    cases i with
    | placeTag p => exact K.placeTag (hphase (.inl rfl)) hs e fun _ _ _ h => h
    | writeMarker p => exact K.serve (D := []) (hphase (.inl rfl)) hs e fun _ _ h => h
    | _ => exact K.exec (D := []) hi nofun nofun hs e
  rcases resets with h | h | ⟨hp, h | h⟩
  · exact .inl h
  · exact .inr (.inl h)
  · exact .inr (.inr ⟨hp, h.elim .inl fun h => .inr (h.elim .inl fun h => .inr (.inl h))⟩)
  · exact .inr (.inr ⟨hp, .inr (.inr (.inr h))⟩)

/-! ## The reset state (O11) -/

/-- Settles O11. -/
theorem resetStateIsSound : Obligations.ResetStateIsSound := by
  refine ⟨?_, ?_, ?_, ?_, ?_, ?_, ?_, ?_, ?_⟩ <;> decide

end Sys2Proof.Machine

/-! The Command Port: what a transaction is taken to be, what a reset pending does with it, and the port's own commands (11). -/

namespace Sys2Proof.Machine

/-! ## Frames (O4) -/

/-- The CRC-16 check of a frame looks at its last two bytes. -/
theorem crcChecks_append_pair (bs : List Byte) (a b : Byte) : crcChecks (bs ++ [a, b]) = decide ([a, b] = wordBytes (crc16 bs)) := by
  have hlen : (bs ++ [a, b]).length - 2 = bs.length := by simp
  rw [crcChecks, hlen, List.drop_left, List.take_left]

/-- What the port takes a whole frame to be, whatever follows it. -/
theorem ofTransaction_frame {code l a b : Byte} {p : List Byte} (extra : List Byte) (carrier : Bool) (hl : l.toNat ≤ 60)
    (hp : p.length = l.toNat) : Instr.ofTransaction (code :: l :: (p ++ [a, b] ++ extra)) carrier =
      if [a, b] = wordBytes (crc16 (code :: l :: p)) then Instr.ofCode code p carrier else .frameError code := by
  have hsplit : code :: l :: (p ++ [a, b] ++ extra) = (code :: l :: p ++ [a, b]) ++ extra := by simp
  have hframe : (code :: l :: (p ++ [a, b] ++ extra)).take (l.toNat + 4) = code :: l :: p ++ [a, b] := by
    rw [hsplit]
    exact List.take_left' (by simp [hp])
  have hpayload : (p ++ [a, b] ++ extra).take l.toNat = p := by
    rw [List.append_assoc]
    exact List.take_left' hp
  have hroom : l.toNat + 4 ≤ (code :: l :: (p ++ [a, b] ++ extra)).length := by simp [hp]
  unfold Instr.ofTransaction
  dsimp only
  rw [hframe, hpayload, crcChecks_append_pair]
  simp only [hroom, true_and, decide_eq_true_eq]
  exact ite_of_iff (and_iff_right hl) rfl rfl

theorem ofTransaction_short {code l : Byte} {rest : List Byte} (carrier : Bool) (h : 60 < l.toNat ∨ rest.length < l.toNat + 2) :
    Instr.ofTransaction (code :: l :: rest) carrier = .frameError code := by
  unfold Instr.ofTransaction
  dsimp only
  rw [if_neg]
  rintro ⟨hl, hlen, _⟩
  rw [longestPayload] at hl
  simp only [List.length_cons] at hlen
  omega

/-- The code of a host command names it (11 R200). -/
theorem ofCode_of_frame {i : Instr} {code : Nat} {p : Payload} {carrier : Bool} (h : i.frame = some (code, p))
    (hc : ∀ q c, i = .readLink q c → carrier = c) : Instr.ofCode (byte code) p carrier = i := by
  cases i <;> cases h <;> first | rfl | exact congrArg (Instr.readLink _) (hc _ _ rfl)

theorem ofCode_unknown {code : Byte} (p : Payload) (carrier : Bool) (h : 63 ≤ code.toNat) :
    Instr.ofCode code p carrier = .unknownCommand code := by
  obtain ⟨n, hn⟩ := Nat.exists_eq_add_of_le' h
  unfold Instr.ofCode
  rw [hn]
  rfl

theorem ofCode_ne_empty (code : Byte) (p : Payload) (carrier : Bool) : Instr.ofCode code p carrier ≠ .emptyTransaction := by
  unfold Instr.ofCode
  split <;> exact nofun

theorem byte_of_toNat (b : Byte) : byte b.toNat = b := by simp [byte]

theorem byte_toNat {n : Nat} (h : n ≤ 255) : (byte n).toNat = n := by
  simp only [byte, BitVec.toNat_ofNat]
  omega

/-- Settles O4. -/
theorem commandFramesReadBack : Obligations.CommandFramesReadBack := by
  refine ⟨?_, fun bytes carrier => ?_, fun _ _ => rfl, fun _ _ _ carrier h => ofTransaction_short carrier h, ?_⟩
  · intro i bytes extra carrier hwell hbytes hcarrier
    unfold Instr.transaction at hbytes
    unfold Instr.wellFormed at hwell
    cases hframe : i.frame with
    | none => simp [hframe] at hbytes
    | some f =>
      obtain ⟨code, p⟩ := f
      simp only [hframe, Option.some.injEq] at hbytes
      simp only [hframe, decide_eq_true_eq] at hwell
      have hlen : (byte p.length).toNat = p.length := byte_toNat (by rw [longestPayload] at hwell; omega)
      have hroom : (byte p.length).toNat ≤ 60 := Nat.le_trans (Nat.le_of_eq hlen) hwell
      have hwhole : Instr.ofTransaction
          (byte code :: byte p.length :: (p ++ wordBytes (crc16 (byte code :: byte p.length :: p)) ++ extra)) carrier = i :=
        (ofTransaction_frame extra carrier hroom hlen.symm).trans ((if_pos rfl).trans (ofCode_of_frame hframe hcarrier))
      rw [← hbytes]
      simpa [commandFrame, withCrc] using hwhole
  · constructor
    · intro h
      match bytes with
      | [] => rfl
      | [_] => cases h
      | first :: len :: rest =>
        unfold Instr.ofTransaction at h
        dsimp only at h
        split at h
        · exact absurd h (ofCode_ne_empty _ _ _)
        · cases h
    · rintro rfl
      rfl
  · intro code l a b p extra carrier hl hp
    rw [ofTransaction_frame extra carrier hl hp]
    exact ⟨fun h => if_neg h, fun h hcode => by rw [if_pos h, ofCode_unknown p carrier hcode]⟩

/-! ## The end of a transaction (O16, O18) -/

/-- The command of a transaction that is not empty is judged at the end of the transaction alone. -/
theorem exec_transacts {i : Instr} (hi : i.transacts) (hl : ∀ p c, i ≠ .readLink p c) :
    ∃ g, ∀ s, exec i s = .next (s.endTransaction g) := by
  cases i with
  | readLink p c => exact absurd rfl (hl p c)
  | _ => first | exact ⟨_, fun _ => rfl⟩ | exact absurd hi (by simp [Instr.transacts, Instr.frame])

theorem exec_of_pending {i : Instr} {s : State} (hi : i.transacts) (hl : ∀ p c, i ≠ .readLink p c) (hs : s.port.phase = .resetPending) :
    exec i s = .next (s.warmReset .warmCommand ⟨s.contacts, s.link.carrier, false, 0⟩) := by
  obtain ⟨g, hg⟩ := exec_transacts hi hl
  rw [hg, State.endTransaction_resetPending g hs]
  rfl

theorem exec_of_cut {i : Instr} {s : State} (hi : i.transacts) (hl : ∀ p c, i ≠ .readLink p c) (hs : s.port.phase = .cut) :
    exec i s = .next { s with port := { s.port with phase := .ready } } := by
  obtain ⟨g, hg⟩ := exec_transacts hi hl
  rw [hg, State.endTransaction_cut g hs]

/-- READ_LINK senses the carrier before the end of its transaction is judged (log 6). -/
theorem exec_readLink (p : Payload) (c : Bool) (s : State) :
    exec (.readLink p c) s = serve 57 readNothing readLink p (s.senseCarrier c) := rfl

/-- Settles O16. -/
theorem pendingResetTakesTheNextTransaction : Obligations.PendingResetTakesTheNextTransaction := by
  refine ⟨fun i s hs hi hl => exec_of_pending hi hl hs, fun p c s hs => ?_, fun pins s hs => ?_, fun pins s hs => ?_, fun s hs => ?_,
    fun s hs => ⟨fun n => if_pos hs, ?_, fun i hi hl => exec_of_cut hi hl hs, fun p c => ?_⟩⟩
  · rw [exec_readLink, serve, goodFrame, State.endTransaction_resetPending (s := s.senseCarrier c) _ hs]
    rfl
  · exact congrArg _ (if_pos hs)
  · exact congrArg _ (if_neg hs)
  · exact ⟨congrArg _ (if_neg hs), fun n => if_neg hs⟩
  · exact congrArg _ (if_pos hs)
  · rw [exec_readLink, serve, goodFrame, State.endTransaction_cut (s := s.senseCarrier c) _ hs]
    rfl

/-- A good frame of a port that is ready: supervision is restarted and the frame judged. -/
theorem goodFrame_ready {s t : State} {g : State → State} (h : s.port.phase = .ready) (ht : g s.restartSupervision = t) :
    goodFrame s g = .next t := by
  rw [goodFrame, State.endTransaction_ready _ h, ht]

/-- A host command that its fields fit ends in what its rule gives. -/
theorem serve_to {α : Type} {code : Nat} {reader : Payload → Option α} {act : α → State → State × Reply} {p : Payload} {s t : State}
    {a : α} (h : s.port.phase = .ready) (hr : reader p = some a) (ht : respond code (act a s.restartSupervision) = t) :
    serve code reader act p s = .next t := (serve_ready h hr).trans (congrArg _ ht)

theorem exec_frameError {s : State} (b : Byte) (h : s.port.phase = .ready) :
    exec (.frameError b) s = .next (s.answer b (refuse .frameError)) := by
  change Host.Outcome.next (s.endTransaction _) = _
  rw [State.endTransaction_ready _ h]

theorem exec_unknownCommand {s : State} (c : Byte) (h : s.port.phase = .ready) :
    exec (.unknownCommand c) s = .next (s.restartSupervision.answer c (refuse .unknownCommand)) := by
  rw [exec, execUnknownCommand]
  exact goodFrame_ready h rfl

/-- Settles O18. -/
theorem nopLeavesTheBuffer : Obligations.NopLeavesTheBuffer := by
  refine fun s => ⟨fun h => ⟨?_, fun b p => ?_, exec_frameError 0#8 h⟩, fun h p => exec_of_pending (.inl rfl) nofun h⟩
  · rw [exec, execNop]
    exact goodFrame_ready h rfl
  · rw [exec, execNop]
    exact goodFrame_ready h rfl

/-! ## The port's own commands (O17) -/

theorem keptCmd_marker (b : Byte) : KeptCmd fun _ s => s.port.marker = b where
  touches h _ hs := (congrArg Port.marker h.port).trans hs
  writes h _ hs := h.marker.trans hs
  cond _ hs := hs
  mono _ hs := hs

/-- A command other than WRITE_MARKER and a cold reset keeps the marker. -/
theorem exec_keeps_marker {i : Instr} {s t : State} (e : exec i s = .next t) (hm : ∀ p, i ≠ .writeMarker p)
    (hc : ∀ pins, i ≠ .coldReset pins) : t.port.marker = s.port.marker := by
  have K := keptCmd_marker s.port.marker
  by_cases hi : i.resets s
  · rcases exec_of_resets hi e with ⟨pins, rfl, rfl⟩ | ⟨u, kind, pins, hu, rfl⟩
    · exact absurd rfl (hc pins)
    · refine K.warmReset kind pins ?_
      rw [(u.warmBlocks_frame pins).2.2.2]
      rcases hu with rfl | ⟨c, rfl⟩ <;> rfl
  · have hphase : i.transacts → s.port.phase ≠ .resetPending := fun hx hp => hi (.inr (.inr ⟨hp, .inl hx⟩))
    cases i with
    | placeTag p => exact K.placeTag (hphase (.inl rfl)) rfl e fun _ _ _ h => h
    | writeMarker p => exact absurd rfl (hm p)
    | _ => exact K.exec (D := []) hi nofun nofun rfl e

/-- Settles O17. -/
theorem portCommandsAnswer : Obligations.PortCommandsAnswer := by
  exact ⟨fun s h => ⟨serve_to h rfl rfl, fun b => exec_frameError b h, fun c => exec_unknownCommand c h⟩,
    fun s h => serve_to h rfl (by cases hk : s.port.kind <;> simp [respond, readStartReason, startReason, hk, StartKind.place, ok, be1]),
    fun s b h => serve_to h rfl (by rw [respond, writeMarker, byte_of_toNat]; rfl),
    fun i s t e hm hc => exec_keeps_marker e hm hc, fun s pins => ⟨_, rfl, rfl, rfl, rfl⟩⟩

/-! ## The cold reset (O14) -/

/-- Settles O14: State.cold, block by block. -/
theorem coldResetLeaves : Obligations.ColdResetLeaves := ⟨fun _ _ => rfl, rfl⟩

end Sys2Proof.Machine

/-! How a host command is answered: by its rule, with BAD_FIELD where its payload does not fit, and with nothing done where it is refused
(11 R200). -/

namespace Sys2Proof.Machine

/-! ## Payloads -/

theorem read1_byte {n : Nat} (h : n ≤ 255) (rest : List Byte) : read1 (byte n :: rest) = some (n, rest) := by
  rw [read1, byte_toNat h]

theorem read2_be2 {n : Nat} (h : n ≤ 65535) (rest : List Byte) : read2 (be2 n ++ rest) = some (n, rest) := by
  simp only [be2, List.cons_append, List.nil_append, read2, byte, BitVec.toNat_ofNat, Option.some.injEq, Prod.mk.injEq, and_true]
  omega

theorem readByte_byte {n : Nat} (h : n ≤ 255) : readByte [byte n] = some n := by rw [readByte, read1_byte h]; rfl

theorem readTwo_bytes {m n : Nat} (hm : m ≤ 255) (hn : n ≤ 255) : readTwo [byte m, byte n] = some (m, n) := by
  simp [readTwo, read1_byte hm, read1_byte hn, whole]

theorem readWord_be2 {n : Nat} (h : n ≤ 65535) : readWord (be2 n) = some n := by
  have hr := read2_be2 h []
  rw [List.append_nil] at hr
  rw [readWord, hr]
  rfl

theorem Ix4.num_le (i : Ix4) : i.num ≤ 4 := by cases i <;> decide

theorem Ix4.num_small (i : Ix4) : i.num ≤ 255 := Nat.le_trans i.num_le (by decide)

theorem Ix4.one_le_num (i : Ix4) : 1 ≤ i.num := by cases i <;> decide

/-! ### A payload of another length is misshapen -/

theorem readNothing_none {p : Payload} (h : p.length ≠ 0) : readNothing p = none := by
  match p, h with
  | _ :: _, _ => rfl

theorem readByte_none {p : Payload} (h : p.length ≠ 1) : readByte p = none := by
  match p, h with
  | [], _ | _ :: _ :: _, _ => rfl

theorem readTwo_none {p : Payload} (h : p.length ≠ 2) : readTwo p = none := by
  match p, h with
  | [], _ | [_], _ | _ :: _ :: _ :: _, _ => rfl

theorem readWord_none {p : Payload} (h : p.length ≠ 2) : readWord p = none := by
  match p, h with
  | [], _ | [_], _ | _ :: _ :: _ :: _, _ => rfl

theorem readRelease_none {p : Payload} (h : p.length ≠ 5) : readRelease p = none := by
  match p, h with
  | [], _ | [_], _ | [_, _], _ | [_, _, _], _ | [_, _, _, _], _ | _ :: _ :: _ :: _ :: _ :: _ :: _, _ => rfl

theorem readStaged_none {p : Payload} (h : p.length ≠ 6) : readStaged p = none := by
  match p, h with
  | [], _ | [_], _ | [_, _], _ | [_, _, _], _ | [_, _, _, _], _ | [_, _, _, _, _], _ | _ :: _ :: _ :: _ :: _ :: _ :: _ :: _, _ => rfl

theorem readClock_none {p : Payload} (h : p.length ≠ 7) : readClock p = none := by
  match p, h with
  | [], _ | [_], _ | [_, _], _ | [_, _, _], _ | [_, _, _, _], _ | [_, _, _, _, _], _ | [_, _, _, _, _, _], _
  | _ :: _ :: _ :: _ :: _ :: _ :: _ :: _ :: _, _ => rfl

theorem readWindowFields_none {p : Payload} (h : p.length ≠ 8) : readWindowFields p = none := by
  match p, h with
  | [], _ | [_], _ | [_, _], _ | [_, _, _], _ | [_, _, _, _], _ | [_, _, _, _, _], _ | [_, _, _, _, _, _], _
  | [_, _, _, _, _, _, _], _ | _ :: _ :: _ :: _ :: _ :: _ :: _ :: _ :: _ :: _, _ => rfl

/-- A command whose payload has not its fields is answered BAD_FIELD. -/
theorem serve_badField {α : Type} {code : Nat} {reader : Payload → Option α} {act : α → State → State × Reply} {p : Payload} {s : State}
    (h : s.port.phase = .ready) (hr : reader p = none) :
    serve code reader act p s = .next (s.restartSupervision.answer (byte code) ⟨.badField, []⟩) := serve_misshapen h hr

/-- A command whose payload has its fields is answered as its rule says. -/
theorem serve_answers {α : Type} {code : Nat} {reader : Payload → Option α} {act : α → State → State × Reply} {p : Payload} {s u : State}
    {a : α} {r : Reply} (h : s.port.phase = .ready) (hr : reader p = some a) (ha : act a s.restartSupervision = (u, r)) :
    serve code reader act p s = .next (u.answer (byte code) r) := serve_to h hr (congrArg (respond code) ha)

/-! ### A feeder out of range -/

theorem onFeeder_none {n : Nat} {s : State} {k : Feeder → State × Reply} (h : Ix4.ofNum n = none) :
    onFeeder n s k = (s, refuse .badField) := by rw [onFeeder, h]

@[simp] theorem onFeeder_num (f : Feeder) (s : State) (k : Feeder → State × Reply) : onFeeder f.num s k = k f := by
  rw [onFeeder, Ix4.ofNum_num]

/-! ### While a commit is in flight -/

theorem State.committing_eq_false {s : State} (h : ∀ d, s.store.staging ≠ .committing d) : s.restartSupervision.committing = false := by
  change (match s.store.staging with | .committing _ => true | .closed | .opened _ => false) = false
  cases hs : s.store.staging with
  | committing d => exact absurd hs (h d)
  | _ => rfl

theorem busyWhileCommitting_idle {α : Type} {act : α → State → State × Reply} {a : α} {s : State} (h : s.committing = false) :
    busyWhileCommitting act a s = act a s := by
  rw [busyWhileCommitting, h]
  rfl

/-- A kind byte that names no kind is let pass with what follows it (log 44). -/
theorem readTarget_unnamed {k : Byte} (rest : List Byte) (hk : 2 < k.toNat) : readTarget (k :: rest) = some (.unnamed k.toNat) := by
  obtain ⟨n, hn⟩ := Nat.exists_eq_add_of_le' hk
  simp only [readTarget, read1, hn]
  rfl

/-- A payload whose length does not fit its fields, by the command (11 R200). -/
theorem exec_of_length {i : Instr} {code n : Nat} {p : Payload} {s : State} (hf : i.frame = some (code, p)) (h : s.port.phase = .ready)
    (hn : (code, n) ∈ [(0, 0), (1, 0), (2, 0), (3, 1), (4, 1), (6, 6), (7, 0), (8, 0), (9, 0), (10, 2), (11, 1), (12, 1), (13, 0),
      (14, 1), (15, 1), (16, 1), (17, 2), (18, 1), (21, 5), (22, 5), (23, 2), (25, 0), (26, 7), (27, 0), (28, 1), (29, 8),
      (30, 1), (31, 1), (33, 1), (35, 1), (36, 1), (37, 2), (38, 0), (39, 2), (40, 1), (42, 2), (43, 2), (44, 1), (46, 1),
      (47, 1), (48, 1), (49, 1), (51, 1), (52, 1), (54, 2), (55, 1), (56, 0), (58, 2), (59, 1), (60, 0), (61, 0), (62, 2)])
    (hp : p.length ≠ n) : exec i s = .next (s.restartSupervision.answer (byte code) ⟨.badField, []⟩) := by
  cases i <;> cases hf <;> simp at hn <;> subst hn
  case nop =>
    rw [exec, execNop]
    exact goodFrame_ready h (by rw [readNothing_none hp]; rfl)
  case writeStaged => exact serve_badField h (readStaged_none hp)
  case releaseTag => exact serve_badField h (readRelease_none hp)
  case supervisorRelease => exact serve_badField h (readRelease_none hp)
  case readTag => exact serve_badField h (readWord_none hp)
  case setCalendar => exact serve_badField h (readClock_none hp)
  case writeWindow => exact serve_badField h (readWindowFields_none hp)
  all_goals first
    | exact serve_badField h (readNothing_none hp)
    | exact serve_badField h (readByte_none hp)
    | exact serve_badField h (readTwo_none hp)

/-- Settles O20. -/
theorem misshapenCommandsAreBadField : Obligations.MisshapenCommandsAreBadField := by
  refine ⟨fun i code p s n hf h hn hp => exec_of_length hf h hn hp, fun p c s h hp => ?_, fun s b c h hb => ?_⟩
  · exact serve_badField (s := s.senseCarrier c) h (readNothing_none (mt List.length_eq_zero_iff.mp hp))
  · have hnone : Ix4.ofNum b.toNat = none := Ix4.ofNum_eq_none.mpr (hb.imp (fun e => by omega) id)
    have out {k : Feeder → State × Reply} := onFeeder_none (s := s.restartSupervision) (k := k) hnone
    refine ⟨?_, fun hcommit => ?_⟩
    · simp only [List.forall_mem_cons, List.not_mem_nil, false_imp_iff, implies_true, and_true]
      refine ⟨?_, ?_, ?_, ?_, ?_, ?_, ?_, ?_, ?_, ?_, ?_, ?_, ?_, ?_, ?_, ?_, ?_⟩ <;> rintro code p ⟨⟩
      case refine_5 => exact serve_answers h rfl (by simp [setHostBlock, hnone, refuse])
      case refine_7 => exact serve_answers h rfl (by simp [selectGroup, hnone, refuse])
      all_goals exact serve_answers h rfl out
    · have idle : s.restartSupervision.committing = false := State.committing_eq_false hcommit
      simp only [List.forall_mem_cons, List.not_mem_nil, false_imp_iff, implies_true, and_true]
      refine ⟨?_, ?_, fun code p hf hopen => ?_⟩
      · rintro code p ⟨⟩ -
        refine serve_answers h rfl ((busyWhileCommitting_idle idle).trans ?_)
        simp [readGroup, hnone, refuse]
      · rintro code p ⟨⟩ -
        exact serve_answers h rfl ((busyWhileCommitting_idle idle).trans out)
      · cases hf
        have hclosed : s.store.staging = .closed := by
          cases hs : s.store.staging with
          | closed => rfl
          | opened d => exact absurd hs (hopen d trivial)
          | committing d => exact absurd hs (hcommit d)
        refine serve_answers h rfl ((busyWhileCommitting_idle idle).trans ?_)
        simp [openStaging, hclosed, TargetFields.target, hnone, refuse]

/-! ## While a commit is in flight (O21) -/

/-- Settles O21. -/
theorem busyWhileACommitIsInFlight : Obligations.BusyWhileACommitIsInFlight := by
  intro s d a b f v h hs
  have hstaging : s.restartSupervision.store.staging = .committing d := hs
  have busy {α : Type} {act : α → State → State × Reply} (x : α) :
      busyWhileCommitting act x s.restartSupervision = (s.restartSupervision, refuse .busy) := by
    rw [busyWhileCommitting, if_pos (by rw [State.committing, hstaging])]
  refine ⟨?_, fun k rest hk => ?_, ?_, ?_⟩
  · simp only [List.forall_mem_cons, List.not_mem_nil, false_imp_iff, implies_true, and_true]
    refine ⟨?_, ?_, ?_, ?_, ?_, ?_, ?_⟩ <;> rintro code p ⟨⟩ <;> exact serve_answers h rfl (busy _)
  · exact serve_answers h (readTarget_unnamed rest hk) (busy _)
  · exact serve_answers h rfl (by simp [writeStaged, hs, refuse])
  · exact serve_answers h rfl (by simp [discardStaging, hs, refuse])

/-! ## Refusals (O19) -/

/-- An answer that is not OK comes with nothing done. -/
def Refuses (s : State) (r : State × Reply) : Prop := r.2.status ≠ .ok → r.1 = s

theorem Refuses.same {s : State} {r : Reply} : Refuses s (s, r) := fun _ => rfl

theorem Refuses.done {s u : State} {p : Payload} : Refuses s (u, ok p) := fun h => absurd rfl h

theorem Refuses.of_same {s : State} {r : State × Reply} (h : r.1 = s) : Refuses s r := fun _ => h

theorem Refuses.ite {c : Prop} [Decidable c] {s : State} {r q : State × Reply} (hr : Refuses s r) (hq : Refuses s q) :
    Refuses s (if c then r else q) := by
  split
  · exact hr
  · exact hq

theorem Refuses.onFeeder {n : Nat} {s : State} {k : Feeder → State × Reply} (h : ∀ f, Refuses s (k f)) :
    Refuses s (Machine.onFeeder n s k) := by
  unfold Machine.onFeeder
  split
  · exact h _
  · exact .same

theorem Refuses.onEntry {n : Nat} {s : State} {k : Entry → State × Reply} (h : ∀ e, Refuses s (k e)) :
    Refuses s (Machine.onEntry n s k) := by
  unfold Machine.onEntry
  refine .ite ?_ .same
  split
  · exact h _
  · exact .same

theorem Refuses.onHunt {n : Nat} {s : State} {k : Feeder → Hunt → State × Reply} (h : ∀ f x, Refuses s (k f x)) :
    Refuses s (Machine.onHunt n s k) := by
  refine .onFeeder fun f => ?_
  split
  · exact h _ _
  · exact .same

theorem Refuses.onDevice {n : Nat} {s : State} {k : Device → State × Reply} (h : ∀ d, Refuses s (k d)) :
    Refuses s (Machine.onDevice n s k) := by
  unfold Machine.onDevice
  refine .ite ?_ .same
  split
  · exact h _
  · exact .same

theorem Refuses.busy {α : Type} {act : α → State → State × Reply} {a : α} {s : State} (h : Refuses s (act a s)) :
    Refuses s (busyWhileCommitting act a s) := .ite .same h

/-! ### By block -/

theorem setAttentionLevel_refuses (x : Nat × Nat) (s : State) : Refuses s (setAttentionLevel x s) := by
  unfold setAttentionLevel
  split
  · exact .same
  · exact .ite .same .done

theorem setMaskLevel_refuses (n : Nat) (s : State) : Refuses s (setMaskLevel n s) := .ite .same .done

theorem fetchAttention_refuses (x : Unit) (s : State) : Refuses s (fetchAttention x s) := by
  unfold fetchAttention
  split
  · exact .same
  · exact .done

theorem setSupervision_refuses (x : Nat × Nat) (s : State) : Refuses s (setSupervision x s) := by
  unfold setSupervision
  split
  · exact .same
  · exact .ite .same (.ite .same .done)

theorem closeBreaker_refuses (n : Nat) (s : State) : Refuses s (closeBreaker n s) :=
  .onFeeder fun _ => .ite .same (.ite .same (.ite .same .done))

theorem openBreaker_refuses (n : Nat) (s : State) : Refuses s (openBreaker n s) := .onFeeder fun _ => .ite .same .done

theorem clearBreakerFail_refuses (n : Nat) (s : State) : Refuses s (clearBreakerFail n s) := .onFeeder fun _ => .ite .done .same

theorem setHostBlock_refuses (x : Nat × Nat) (s : State) : Refuses s (setHostBlock x s) := by
  unfold setHostBlock
  split
  · exact .ite .same .done
  · exact .same

theorem openStaging_refuses (t : TargetFields) (s : State) : Refuses s (openStaging t s) := by
  unfold openStaging
  split
  · exact .same
  · exact .same
  · split
    · exact .done
    · exact .same

theorem writeStaged_refuses (w : StagedFields) (s : State) : Refuses s (writeStaged w s) := by
  unfold writeStaged
  split
  · exact .same
  · exact .same
  · split
    · exact .done
    · exact .same

theorem discardStaging_refuses (x : Unit) (s : State) : Refuses s (discardStaging x s) := by
  unfold discardStaging
  split
  · exact .same
  · exact .same
  · exact .done

theorem commitStaging_refuses (x : Unit) (s : State) : Refuses s (commitStaging x s) := by
  unfold commitStaging
  split
  · exact .same
  · exact .same
  · split
    · exact .same
    · exact .done

theorem placeTag_refuses (x : PlaceTagFields) (s : State) : Refuses s (placeTag x s) := by
  unfold placeTag
  split
  · exact .same
  · split
    · exact .same
    · exact .done

/-- An amend that is refused for another reason than the holder's changes nothing. -/
theorem amendTag_refuses (x : AmendTagFields) (s : State) : (amendTag x s).2.status ≠ .notHolder → Refuses s (amendTag x s) := by
  unfold amendTag
  split
  · exact fun _ => .same
  · split
    · exact fun _ => .same
    · split
      · exact fun _ => .same
      · split
        · exact fun _ => .same
        · split
          · exact fun h => absurd rfl h
          · exact fun _ => .ite .same (.ite .same .done)

theorem releaseTag_refuses (x : ReleaseFields) (s : State) : (releaseTag x s).2.status ≠ .notHolder → Refuses s (releaseTag x s) := by
  unfold releaseTag
  split
  · exact fun _ => .same
  · split
    · exact fun _ => .same
    · split
      · exact fun _ => .same
      · split
        · exact fun _ => .done
        · exact fun h => absurd rfl h

theorem supervisorRelease_refuses (x : ReleaseFields) (s : State) : Refuses s (supervisorRelease x s) := by
  unfold supervisorRelease
  split
  · exact .same
  · refine .ite .same ?_
    split
    · exact .same
    · exact .done

theorem setCalendar_refuses (k : Clock) (s : State) : Refuses s (setCalendar k s) := .ite .done .same

theorem setTrim_refuses (n : Nat) (s : State) : Refuses s (setTrim n s) := .ite .done .same

theorem writeWindow_refuses (x : WindowFields) (s : State) : Refuses s (writeWindow x s) := by
  unfold writeWindow
  split
  · exact .done
  · exact .same

theorem clearWindow_refuses (n : Nat) (s : State) : Refuses s (clearWindow n s) := by
  unfold clearWindow
  split
  · exact .ite .same .done
  · exact .same

theorem declareLevel_refuses (x : DeclareFields) (s : State) : Refuses s (declareLevel x s) := by
  unfold declareLevel
  split
  · exact .same
  · exact .ite .same (.ite .same .done)

theorem liftLevel_refuses (n : Nat) (s : State) : Refuses s (liftLevel n s) := by
  unfold liftLevel
  split
  · exact .done
  · exact .same

theorem addEntry_refuses (x : EntryFields) (s : State) : Refuses s (addEntry x s) := by
  unfold addEntry
  split
  · exact .same
  · exact .ite .same (.ite .same .done)

theorem selectGroup_refuses (x : Nat × Nat) (s : State) : Refuses s (selectGroup x s) := by
  unfold selectGroup
  split
  · exact .done
  · exact .same

theorem writeSection_refuses (x : SectionFields) (s : State) : Refuses s (writeSection x s) := by
  unfold writeSection
  split
  · exact .same
  · refine .onFeeder fun f => ?_
    split
    · exact .same
    · exact .done

theorem deleteSection_refuses (x : Nat × Nat) (s : State) : Refuses s (deleteSection x s) :=
  .onFeeder fun _ => .ite (.ite .same (.ite .same .done)) .same

theorem startHunt_refuses (n : Nat) (s : State) : Refuses s (startHunt n s) :=
  .onFeeder fun _ => .ite .same (.ite .same (.ite .same (.ite .same .done)))

theorem writeDevice_refuses (x : DeviceFields) (s : State) : Refuses s (writeDevice x s) := by
  unfold writeDevice
  split
  · exact .same
  · split
    · exact .same
    · exact .done

theorem orderSwitch_refuses (x : Nat × Nat) (s : State) : Refuses s (orderSwitch x s) := by
  unfold orderSwitch
  split
  · exact .same
  · exact .onDevice fun _ => .ite .same .done

theorem setLinkLimit_refuses (n : Nat) (s : State) : Refuses s (setLinkLimit n s) := .ite (.ite .same .done) .same

/-- A host command in whose answer a status other than OK stands leaves the state as it was, supervision and the response apart. -/
theorem serve_refused {α : Type} {code : Nat} {reader : Payload → Option α} {act : α → State → State × Reply} {p : Payload} {s t : State}
    (h : s.port.phase = .ready) (e : serve code reader act p s = .next t) (hst : t.port.buffer.status ≠ .ok)
    (hact : ∀ a, (act a s.restartSupervision).2.status = t.port.buffer.status → Refuses s.restartSupervision (act a s.restartSupervision)) :
    ∃ r, t = s.restartSupervision.answer (byte code) r := by
  cases hr : reader p with
  | none =>
    rw [serve_misshapen h hr] at e
    cases e
    exact ⟨_, rfl⟩
  | some a =>
    rw [serve_ready h hr] at e
    cases e
    refine ⟨(act a s.restartSupervision).2, ?_⟩
    rw [respond, hact a rfl hst]

/-- What a refusal leaves, for the commands other than NOP and READ_LINK. -/
theorem exec_refused {i : Instr} {code : Nat} {p : Payload} {s t : State} (hf : i.frame = some (code, p)) (h : s.port.phase = .ready)
    (e : exec i s = .next t) (hst : t.port.buffer.status ≠ .ok) (hnop : ∀ p, i ≠ .nop p) (hlink : ∀ p c, i ≠ .readLink p c)
    (hbad : (code = 20 ∨ code = 21) → t.port.buffer.status ≠ .notHolder) : ∃ r, t = s.restartSupervision.answer (byte code) r := by
  have same {α : Type} {act : α → State → State × Reply} (hact : ∀ a u, (act a u).1 = u) (a : α) (u : State) : Refuses u (act a u) :=
    .of_same (hact a u)
  have rule {α : Type} {n : Nat} {reader : Payload → Option α} {act : α → State → State × Reply} {p : Payload}
      (e : serve n reader act p s = .next t) (hact : ∀ a u, Refuses u (act a u)) :
      ∃ r, t = s.restartSupervision.answer (byte n) r := serve_refused h e hst fun a _ => hact a _
  cases i <;> cases hf
  case nop => exact absurd rfl (hnop p)
  case readLink c => exact absurd rfl (hlink p c)
  case amendTag => exact serve_refused h e hst fun a ha => amendTag_refuses a _ (ha ▸ hbad (.inl rfl))
  case releaseTag => exact serve_refused h e hst fun a ha => releaseTag_refuses a _ (ha ▸ hbad (.inr rfl))
  case resetPart => exact rule e fun _ _ => .done
  case readStartReason => exact rule e (same readStartReason_same)
  case writeMarker => exact rule e fun _ _ => .done
  case readElements => exact rule e (same readElements_same)
  case openStaging => exact rule e fun a u => .busy (openStaging_refuses a u)
  case writeStaged => exact rule e writeStaged_refuses
  case readStaging => exact rule e (same readStaging_same)
  case discardStaging => exact rule e discardStaging_refuses
  case commitStaging => exact rule e fun a u => .busy (commitStaging_refuses a u)
  case readGroup => exact rule e fun a u => .busy (.of_same (readGroup_same a u))
  case readCurve => exact rule e fun a u => .busy (.of_same (readCurve_same a u))
  case readConstants => exact rule e fun a u => .busy (.of_same (readConstants_same a u))
  case readStoreStatus => exact rule e (same readStoreStatus_same)
  case closeBreaker => exact rule e closeBreaker_refuses
  case openBreaker => exact rule e openBreaker_refuses
  case clearBreakerFail => exact rule e clearBreakerFail_refuses
  case setHostBlock => exact rule e setHostBlock_refuses
  case readFeeder => exact rule e (same readFeeder_same)
  case placeTag => exact rule e placeTag_refuses
  case supervisorRelease => exact rule e supervisorRelease_refuses
  case readTag => exact rule e (same readTag_same)
  case listTags => exact rule e (same listTags_same)
  case tagsRestored => exact rule e fun _ _ => .done
  case setCalendar => exact rule e setCalendar_refuses
  case readCalendar => exact rule e (same readCalendar_same)
  case setTrim => exact rule e setTrim_refuses
  case writeWindow => exact rule e writeWindow_refuses
  case clearWindow => exact rule e clearWindow_refuses
  case readWindow => exact rule e (same readWindow_same)
  case declareLevel => exact rule e declareLevel_refuses
  case liftLevel => exact rule e liftLevel_refuses
  case addEntry => exact rule e addEntry_refuses
  case deleteEntry => exact rule e fun _ _ => .onEntry fun _ => .done
  case readEntry => exact rule e (same readEntry_same)
  case listEntries => exact rule e (same listEntries_same)
  case readLevels => exact rule e (same readLevels_same)
  case selectGroup => exact rule e selectGroup_refuses
  case readCondition => exact rule e (same readCondition_same)
  case writeSection => exact rule e writeSection_refuses
  case deleteSection => exact rule e deleteSection_refuses
  case readSection => exact rule e (same readSection_same)
  case listSections => exact rule e (same listSections_same)
  case locate => exact rule e (same locate_same)
  case startHunt => exact rule e startHunt_refuses
  case abandonHunt => exact rule e fun _ _ => .onHunt fun _ _ => .ite .same .done
  case readHunt => exact rule e (same readHunt_same)
  case dismissHunt => exact rule e fun _ _ => .onHunt fun _ _ => .ite .done .same
  case writeDevice => exact rule e writeDevice_refuses
  case deleteDevice => exact rule e fun _ _ => .onDevice fun _ => .ite .same .done
  case readDevice => exact rule e (same readDevice_same)
  case listDevices => exact rule e (same listDevices_same)
  case orderSwitch => exact rule e orderSwitch_refuses
  case setLinkLimit => exact rule e setLinkLimit_refuses
  case linkClear => exact rule e fun _ _ => .done
  case setAttentionLevel => exact rule e setAttentionLevel_refuses
  case setMaskLevel => exact rule e setMaskLevel_refuses
  case fetchAttention => exact rule e fetchAttention_refuses
  case readAttention => exact rule e (same readAttention_same)
  case setSupervision => exact rule e setSupervision_refuses

/-- Settles O19. -/
theorem refusalChangesNothingElse : Obligations.RefusalChangesNothingElse := by
  intro i code p s t hf h e hst hnop hbad
  by_cases hlink : ∃ q c, i = .readLink q c
  · obtain ⟨q, c, rfl⟩ := hlink
    cases hf
    obtain ⟨r, rfl⟩ := serve_refused (s := s.senseCarrier c) h e hst fun a _ => .of_same (readLink_same a _)
    exact ⟨rfl, fun d hd => by cases hd; rfl, fun hc => absurd rfl (hc c), rfl⟩
  · have hcarrier : ∀ c, i = .readLink p c → t.link.carrier = c := fun c hc => absurd ⟨p, c, hc⟩ hlink
    by_cases hn : ∃ q, i = .nop q
    · obtain ⟨q, rfl⟩ := hn
      cases hf
      cases p with
      | nil => exact absurd rfl hnop
      | cons b q =>
        rw [exec, execNop, goodFrame_ready h rfl] at e
        cases e
        exact ⟨rfl, hcarrier, fun _ => rfl, rfl⟩
    · obtain ⟨r, rfl⟩ := exec_refused hf h e hst (fun q hq => hn ⟨q, hq⟩) (fun q c hq => hlink ⟨q, c, hq⟩) hbad
      exact ⟨rfl, hcarrier, fun _ => rfl, rfl⟩

end Sys2Proof.Machine

/-! The commands that read (O22 to O24): the record read, and BAD_FIELD or NOT_FOUND where there is none. -/

namespace Sys2Proof.Machine

/-! ## Numbers in one byte -/

theorem byte_small {n m : Nat} (h : n ≤ m) (hm : m ≤ 255 := by decide) : n ≤ 255 := Nat.le_trans h hm

theorem readByte_num (f : Ix4) : readByte [byte f.num] = some f.num := readByte_byte f.num_small

theorem Ix4.place_small (i : Ix4) : i.place ≤ 255 := by cases i <;> decide

/-- A command that names a feeder. -/
theorem serve_onFeeder {code : Nat} {act : Nat → State → State × Reply} {s u : State} (f : Feeder) {r : Reply} (h : s.port.phase = .ready)
    (ha : act f.num s.restartSupervision = (u, r)) : serve code readByte act [byte f.num] s = .next (u.answer (byte code) r) := serve_answers h (readByte_num f) ha

/-- Settles O22. -/
theorem protectionReadsAnswer : Obligations.ProtectionReadsAnswer := by
  intro s f g n h
  refine ⟨serve_onFeeder f h (onFeeder_num ..), serve_answers h rfl rfl, serve_answers h rfl rfl, serve_onFeeder f h (onFeeder_num ..),
    fun hcommit => ?_⟩
  have idle {α : Type} {act : α → State → State × Reply} (a : α) :
      busyWhileCommitting act a s.restartSupervision = act a s.restartSupervision :=
    busyWhileCommitting_idle (State.committing_eq_false hcommit)
  refine ⟨serve_answers h (readTwo_bytes f.num_small g.num_small) ((idle _).trans ?_),
    serve_answers h (readByte_byte n.place_small) ((idle _).trans ?_), serve_onFeeder f h ((idle _).trans (onFeeder_num ..)),
    fun b c hbc => serve_answers h rfl ((idle _).trans ?_), fun b hb => serve_answers h rfl ((idle _).trans ?_)⟩
  · simp [readGroup]
  · simp [readCurve]
  · unfold readGroup
    dsimp only
    split
    · next i j hi hj =>
      have hb : ¬(b.toNat < 1 ∨ 4 < b.toNat) := fun hn => by simp [Ix4.ofNum_eq_none.mpr hn] at hi
      have hc : ¬(c.toNat < 1 ∨ 4 < c.toNat) := fun hn => by simp [Ix4.ofNum_eq_none.mpr hn] at hj
      omega
    · rfl
  · have hnone : Ix4.ofPlace b.toNat = none := Ix4.ofNum_eq_none.mpr (.inr (by omega))
    simp [readCurve, hnone]

/-! ## Tags and calendar (O23) -/

theorem onEntry_range {n : Nat} {s : State} {k : Entry → State × Reply} (h : ¬(1 ≤ n ∧ n ≤ 16)) :
    onEntry n s k = (s, refuse .badField) := if_neg h

/-- The feeder of a listing out of range. -/
theorem listFeeder_none {n : Nat} (h : n < 1 ∨ 4 < n) : listFeeder (some n) = none := by
  rw [listFeeder, Ix4.ofNum_eq_none.mpr h]
  rfl

theorem listTags_range {x : ListTagsFields} {s : State} (h : ¬(1 ≤ x.first ∧ x.first ≤ 48 ∧ 1 ≤ x.count ∧ x.count ≤ 12)) :
    listTags x s = (s, refuse .badField) := by
  unfold listTags
  split
  · rfl
  · exact if_neg h

theorem listTags_of {x : ListTagsFields} {s : State} {f : Option Feeder} (hf : listFeeder x.feeder = some f)
    (h : 1 ≤ x.first ∧ x.first ≤ 48 ∧ 1 ≤ x.count ∧ x.count ≤ 12) : listTags x s =
      (s, ok (listOf tagEntry (((s.tagsOf f).drop (x.first - 1)).take x.count) ++ be1 (s.tagsOf f).length)) := by
  unfold listTags
  rw [hf]
  exact if_pos h

theorem readListTags_all {m n : Nat} (hm : m ≤ 255) (hn : n ≤ 255) : readListTags [byte m, byte n, 0#8] = some ⟨m, n, none⟩ := by
  simp [readListTags, read1, byte_toNat hm, byte_toNat hn, readOpt, whole]

theorem readListTags_feeder {m n k : Nat} (hm : m ≤ 255) (hn : n ≤ 255) (hk : k ≤ 255) :
    readListTags [byte m, byte n, 1#8, byte k] = some ⟨m, n, some k⟩ := by
  have hpresent : readOpt read1 (1#8 :: [byte k]) = some (some k, []) := by
    simp [readOpt, read1, byte_toNat hk]
  simp [readListTags, read1_byte hm, read1_byte hn, hpresent, whole]

/-- Settles O23. -/
theorem tagAndCalendarReadsAnswer : Obligations.TagAndCalendarReadsAnswer := by
  intro s i h
  refine ⟨fun n h1 hn => ?_, serve_answers h rfl (if_pos rfl), fun b c d => ⟨fun hr => ?_, fun hr => ?_, fun hr => ?_, fun hr => ?_, fun hr => ?_⟩,
    fun first count hf hf48 hc hc12 => ⟨?_, ?_⟩, serve_answers h rfl rfl, ?_, fun n h1 hn => ?_, fun first count hf hf16 hc hc8 => ?_,
    serve_answers h rfl rfl⟩
  · refine serve_answers h (readWord_be2 hn) ?_
    rw [readTag, if_neg (by omega)]
    change (match s.findTag n with | some t => _ | none => _) = _
    cases s.findTag n <;> rfl
  · exact serve_answers h rfl (listTags_range (by rintro ⟨_, _, _, _⟩; dsimp only at *; omega))
  · refine serve_answers (a := ⟨b.toNat, c.toNat, some d.toNat⟩) h rfl ?_
    by_cases hd : d.toNat < 1 ∨ 4 < d.toNat
    · rw [listTags, listFeeder_none hd]
    · exact listTags_range (by rintro ⟨_, _, _, _⟩; dsimp only at *; omega)
  · refine serve_answers h rfl ?_
    rw [readWindow, Ix4.ofNum_eq_none.mpr (by omega)]
  · exact serve_answers h rfl (onEntry_range (by omega))
  · exact serve_answers h rfl (if_neg (by rintro ⟨_, _, _, _⟩; dsimp only at *; omega))
  · exact serve_answers h (readListTags_all (byte_small hf48) (byte_small hc12)) (listTags_of (f := none) rfl ⟨hf, hf48, hc, hc12⟩)
  · refine serve_answers h (readListTags_feeder (byte_small hf48) (byte_small hc12) i.num_small) (listTags_of (f := some i) ?_ ⟨hf, hf48, hc, hc12⟩)
    simp [listFeeder]
  · refine serve_onFeeder i h ?_
    simp [readWindow]
  · refine serve_answers h (readByte_byte (byte_small hn)) ?_
    rw [readEntry, onEntry, if_pos ⟨h1, hn⟩]
    change (match s.cal.schedule.find n with | some e => _ | none => _) = _
    cases s.cal.schedule.find n <;> rfl
  · exact serve_answers h (readTwo_bytes (byte_small hf16) (byte_small hc8)) (if_pos ⟨hf, hf16, hc, hc8⟩)

/-! ## Condition, map, link and attention (O24) -/

theorem readLocate_none (f : Ix4) : readLocate [byte f.num, 0#8] = some (f.num, none) := by
  simp [readLocate, read1, byte_toNat f.num_small, readOpt, whole]

theorem readLocate_some (f : Ix4) {x : Nat} (hx : x ≤ 65535) : readLocate ([byte f.num, 1#8] ++ be2 x) = some (f.num, some x) := by
  have hword : read2 (be2 x) = some (x, []) := by simpa using read2_be2 hx []
  have hpresent : readOpt read2 (1#8 :: be2 x) = some (some x, []) := by
    simp [readOpt, read1, hword]
  simp [readLocate, read1_byte f.num_small, hpresent, whole]

theorem onSection_num (f : Feeder) {n : Nat} {s : State} {k : Feeder → Nat → State × Reply} (h : 1 ≤ n ∧ n ≤ 16) :
    onSection (f.num, n) s k = k f n := by
  rw [onSection, onFeeder_num, if_pos h]

theorem onSection_range (f : Feeder) {n : Nat} {s : State} {k : Feeder → Nat → State × Reply} (h : ¬(1 ≤ n ∧ n ≤ 16)) :
    onSection (f.num, n) s k = (s, refuse .badField) := by
  rw [onSection, onFeeder_num, if_neg h]

/-- Settles O24. -/
theorem conditionMapAndLinkReadsAnswer : Obligations.ConditionMapAndLinkReadsAnswer := by
  intro s f h
  refine ⟨serve_onFeeder f h (onFeeder_num ..), fun n h1 hn => ?_, fun b hb => ?_, serve_onFeeder f h (onFeeder_num ..), ?_, fun x hx => ?_,
    fun x hlow hx => ?_, serve_answers h rfl rfl, ?_, fun c => serve_answers (s := s.senseCarrier c) h rfl rfl, serve_answers h rfl rfl⟩
  · exact serve_answers h (readTwo_bytes f.num_small (byte_small hn)) (onSection_num f ⟨h1, hn⟩)
  · have hbyte : readTwo [byte f.num, b] = some (f.num, b.toNat) := by simp [readTwo, read1, byte_toNat f.num_small, whole]
    exact serve_answers h hbyte (onSection_range f (by omega))
  · exact serve_answers h (readLocate_none f) (onFeeder_num ..)
  · refine serve_answers h (readLocate_some f (by omega)) ?_
    rw [locate, onFeeder_num, if_neg (by simp [hx])]
    rfl
  · refine serve_answers h (readLocate_some f hx) ?_
    rw [locate, onFeeder_num, if_pos (by simp; omega)]
  · have hbyte : readOptByte [1#8, byte f.num] = some (some f.num) := by
      simp [readOptByte, readOpt, read1, byte_toNat f.num_small, whole]
    exact serve_answers h hbyte (onFeeder_num ..)

end Sys2Proof.Machine

/-! The Attention Unit (O59, O60): giving and fetching notices, levels, the mask, and host supervision. -/

namespace Sys2Proof.Machine

/-! ## Giving a notice -/

/-- The key of a notice names its kind and scope. -/
theorem noticeKey_inj {k l : NoticeKind} {x y : Scope} (h : noticeKey k x = noticeKey l y) : k = l ∧ x = y := by
  obtain rfl := scope_of_noticeKey_eq h
  have hplace : k.place = l.place := by
    unfold noticeKey at h
    omega
  exact ⟨by cases k <;> cases l <;> first | rfl | exact absurd hplace (by decide), rfl⟩

/-- A notice of a kind and scope that is pending folds into the pending one. -/
theorem enterNotice_fold {sc : Scope} {d : Detail} {before after : List Notice} {n : Notice}
    (hb : ∀ m ∈ before, m.key < noticeKey d.kind sc) (hn : n.key = noticeKey d.kind sc) :
    enterNotice sc d (before ++ n :: after) = before ++ ⟨sc, d, min 255 (n.repeats + 1)⟩ :: after := by
  induction before with
  | nil => rw [List.nil_append, enterNotice, if_neg (by omega), if_pos hn.symm, List.nil_append]
  | cons m rest ih =>
    have hm := hb m (List.mem_cons_self ..)
    rw [List.cons_append, enterNotice, if_neg (by omega), if_neg (by omega), ih fun k hk => hb k (List.mem_cons_of_mem _ hk),
      List.cons_append]

/-- A notice of a new kind and scope enters an ordered pending set in its place. -/
theorem enterNotice_new {sc : Scope} {d : Detail} {ns : List Notice} (ho : (ns.map Notice.key).Pairwise (· < ·))
    (hns : ∀ n ∈ ns, n.key ≠ noticeKey d.kind sc) : ∃ before after, ns = before ++ after
      ∧ enterNotice sc d ns = before ++ ⟨sc, d, 0⟩ :: after ∧ (∀ m ∈ before, m.key < noticeKey d.kind sc)
      ∧ ∀ m ∈ after, noticeKey d.kind sc < m.key := by
  induction ns with
  | nil => exact ⟨[], [], rfl, rfl, nofun, nofun⟩
  | cons n rest ih =>
    obtain ⟨hn, hrest⟩ := List.pairwise_cons.mp ho
    have hne := hns n (List.mem_cons_self ..)
    rw [enterNotice]
    split
    · next hlt =>
      refine ⟨[], n :: rest, rfl, rfl, nofun, fun m hm => ?_⟩
      rcases List.mem_cons.mp hm with rfl | hm
      · exact hlt
      · exact Nat.lt_trans hlt (hn _ (List.mem_map_of_mem hm))
    · next hge =>
      obtain ⟨before, after, hsplit, henter, hb, ha⟩ := ih hrest fun m hm => hns m (List.mem_cons_of_mem _ hm)
      refine ⟨n :: before, after, by rw [hsplit]; rfl, by rw [if_neg (Ne.symm hne), henter]; rfl, fun m hm => ?_, ha⟩
      rcases List.mem_cons.mp hm with rfl | hm
      · omega
      · exact hb m hm

/-! ## Fetching -/

/-- The notice of highest level, the first among equals, is fetched first (10 R189). -/
theorem Attention.fetchOrder_head {a : Attention} {before after : List Notice} {n : Notice} (hn : a.notices = before ++ n :: after)
    (h7 : a.levelOf n ≤ 7) (hb : ∀ m ∈ before, a.levelOf m < a.levelOf n) (ha : ∀ m ∈ after, a.levelOf m ≤ a.levelOf n) :
    ∃ rest, a.fetchOrder = n :: rest := by
  have hmem : a.levelOf n ∈ [7, 6, 5, 4, 3, 2, 1, 0] := by simp; omega
  obtain ⟨high, low, hsplit⟩ := List.append_of_mem hmem
  have hdown : ([7, 6, 5, 4, 3, 2, 1, 0] : List Nat).Pairwise (· > ·) := by decide
  rw [hsplit, List.pairwise_append] at hdown
  obtain ⟨-, -, hhigh⟩ := hdown
  have none_higher : high.flatMap (fun l => a.notices.filter (fun m => decide (a.levelOf m = l))) = [] := by
    rw [List.flatMap_eq_nil_iff]
    intro l hl
    have hlt : a.levelOf n < l := hhigh l hl _ (List.mem_cons_self ..)
    rw [List.filter_eq_nil_iff]
    intro m hm
    have hle : a.levelOf m ≤ a.levelOf n := by
      rw [hn, List.mem_append, List.mem_cons] at hm
      rcases hm with hm | rfl | hm
      · exact Nat.le_of_lt (hb m hm)
      · exact Nat.le_refl _
      · exact ha m hm
    simp
    omega
  have none_before : before.filter (fun m => decide (a.levelOf m = a.levelOf n)) = [] := by
    rw [List.filter_eq_nil_iff]
    intro m hm
    simpa using Nat.ne_of_lt (hb m hm)
  unfold Attention.fetchOrder
  rw [hsplit, List.flatMap_append, none_higher, List.nil_append, List.flatMap_cons, hn, List.filter_append, none_before, List.nil_append,
    List.filter_cons_of_pos (by simp), List.cons_append]
  exact ⟨_, rfl⟩

/-- What is left of an ordered pending set when a notice is taken out. -/
theorem filter_key_ne {before after : List Notice} {n : Notice} (ho : ((before ++ n :: after).map Notice.key).Pairwise (· < ·)) :
    (before ++ n :: after).filter (fun m => decide (m.key ≠ n.key)) = before ++ after := by
  rw [List.map_append, List.map_cons, List.pairwise_append] at ho
  obtain ⟨-, hafter, hcross⟩ := ho
  have hb : ∀ m ∈ before, m.key ≠ n.key := fun m hm => Nat.ne_of_lt (hcross _ (List.mem_map_of_mem hm) _ (List.mem_cons_self ..))
  have ha : ∀ m ∈ after, m.key ≠ n.key := fun m hm => Nat.ne_of_gt ((List.pairwise_cons.mp hafter).1 _ (List.mem_map_of_mem hm))
  rw [List.filter_append, List.filter_cons_of_neg (by simp), List.filter_eq_self.mpr (by simpa using hb),
    List.filter_eq_self.mpr (by simpa using ha)]

theorem Levels.get_set (l : Levels) (j k : NoticeKind) (n : Nat) : (l.set k n).get j = if j = k then n else l.get j := by
  cases k <;> cases j <;> rfl

@[simp] theorem NoticeKind.ofPlace_place (k : NoticeKind) : NoticeKind.ofPlace k.place = some k := by cases k <;> rfl

theorem NoticeKind.place_small (k : NoticeKind) : k.place ≤ 255 := by cases k <;> decide

theorem NoticeKind.ofPlace_none {n : Nat} (h : 12 < n) : NoticeKind.ofPlace n = none := List.getElem?_eq_none h

/-- Settles O59. -/
theorem attentionCommandsAnswer : Obligations.AttentionCommandsAnswer := by
  intro s line h hline
  have judged (a : Attention) : a.judge = { a with line := line a.levels a.mask a.notices } := by
    rw [hline]
    rfl
  refine ⟨fun a sc d => ⟨fun h0 => if_pos h0, fun h0 ho => ⟨fun before after n hn hsc hk => ?_, fun hnew => ?_⟩⟩,
    fun k l hk hl => ⟨?_, fun j => Levels.get_set ..⟩, fun k l hr => ?_, fun m hm => ?_, fun m hm => ?_, fun hnone => ?_,
    fun before after n hn ho h7 hb ha => ?_⟩
  · have ordered : (a.notices.map Notice.key).Pairwise (· < ·) := of_decide_eq_true ho
    rw [hn, List.map_append, List.map_cons, List.pairwise_append] at ordered
    have hkey : n.key = noticeKey d.kind sc := by rw [Notice.key, hsc, hk]
    have hb : ∀ m ∈ before, m.key < noticeKey d.kind sc := fun m hm =>
      hkey ▸ ordered.2.2 _ (List.mem_map_of_mem hm) _ (List.mem_cons_self ..)
    rw [Attention.give, if_neg h0, hn, enterNotice_fold hb hkey, judged]
  · obtain ⟨before, after, hsplit, henter, hb, ha⟩ := enterNotice_new (sc := sc) (d := d) (of_decide_eq_true ho) fun n hn e =>
      hnew n hn (noticeKey_inj e).2 (noticeKey_inj e).1
    refine ⟨before, after, hsplit, ?_, hb, ha⟩
    rw [Attention.give, if_neg h0, henter, judged]
  · refine serve_answers h (readTwo_bytes k.place_small (byte_small hl)) ?_
    simp only [setAttentionLevel, NoticeKind.ofPlace_place]
    rw [if_neg (by simp [hk]; omega), judged]
    rfl
  · refine serve_answers h rfl ?_
    unfold setAttentionLevel
    split
    · rfl
    · next j hj =>
      rw [if_pos]
      rcases hr with rfl | hk | hl
      · cases hj
        exact .inr rfl
      · rw [NoticeKind.ofPlace_none hk] at hj
        cases hj
      · exact .inl hl
  · refine serve_answers h (readByte_byte (byte_small hm)) ?_
    rw [setMaskLevel, if_neg (by omega), judged]
    rfl
  · exact serve_answers h rfl (if_pos hm)
  · refine serve_answers h rfl ?_
    have hempty : s.restartSupervision.att.fetchOrder = [] := by simp [Attention.fetchOrder, hnone]
    rw [fetchAttention, hempty]
    rfl
  · refine serve_answers h rfl ?_
    have hnotices : s.restartSupervision.att.notices = before ++ n :: after := hn
    obtain ⟨rest, hfetch⟩ := Attention.fetchOrder_head hnotices (h7 _) hb ha
    have hleft := filter_key_ne (hn ▸ of_decide_eq_true ho : ((before ++ n :: after).map Notice.key).Pairwise (· < ·))
    simp only [fetchAttention, hfetch, Attention.remove, hnotices, hleft, judged]
    simp [Attention.fetchBytes, Attention.levelOf, be1, scopeByte]

/-! ## Host supervision (O60) -/

@[simp] theorem SupervisionAction.ofPlace_place (a : SupervisionAction) : SupervisionAction.ofPlace a.place = some a := by
  cases a <;> rfl

theorem SupervisionAction.place_small (a : SupervisionAction) : a.place ≤ 255 := by cases a <;> decide

theorem SupervisionAction.ofPlace_none {n : Nat} (h : 1 < n) : SupervisionAction.ofPlace n = none := by
  obtain ⟨m, rfl⟩ := Nat.exists_eq_add_of_le' h
  rfl

/-- Settles O60. -/
theorem supervisionWatchesTheHost : Obligations.SupervisionWatchesTheHost := by
  refine ⟨fun s n a h hn => ⟨fun hweak => ?_, fun hok => ?_⟩, fun s n a h hr => ?_, fun s ht => congrArg _ (if_neg ht), ?_⟩
  · refine serve_answers h (readTwo_bytes (byte_small hn) a.place_small) ?_
    simp only [setSupervision, SupervisionAction.ofPlace_place]
    rw [if_neg (by omega)]
    exact if_pos hweak
  · refine serve_answers h (readTwo_bytes (byte_small hn) a.place_small) ?_
    simp only [setSupervision, SupervisionAction.ofPlace_place]
    rw [if_neg (by omega), if_neg]
    · rfl
    · rintro ⟨hf, hw⟩
      rcases hok with hal | ⟨rfl, h1⟩
      · exact absurd (hal.symm.trans hf) nofun
      · exact hw.elim nofun fun h0 => by omega
  · refine serve_answers h rfl ?_
    unfold setSupervision
    split
    · rfl
    · next x hx =>
      rw [if_pos]
      rcases hr with hn | ha
      · exact hn
      · rw [SupervisionAction.ofPlace_none ha] at hx
        cases hx
  · rintro s c ht rfl
    have hexec : exec .supervisionExpiry s = .next s.supervisionExpires := congrArg _ (if_pos ht)
    refine ⟨fun hstay => ?_, fun hf h1 hl => ?_⟩
    · rw [hexec]
      unfold State.supervisionExpires
      dsimp only
      split
      · next hc =>
        have hlatch : s.latch = true := by
          rcases hstay with hal | hne | hl
          · exact absurd (hal.symm.trans hc.1) nofun
          · exact absurd hc.2 (by omega)
          · exact hl
        rw [State.setLatch, if_pos hlatch]
        rfl
      · rfl
    · have hn : min 255 (s.att.expiries + 1) = 2 := by omega
      obtain ⟨t, ht⟩ : ∃ t, t = State.deriveMany ({ s with
        latch := true
        att := { s.att with expiries := min 255 (s.att.expiries + 1), timer := supervisionTimer s.att.period } }) Ix4.all := ⟨_, rfl⟩
      have hlatch : t.latch = true := ht ▸ keptCmd_latch.deriveMany (D := []) _ rfl
      refine ⟨t, ht, hlatch, ?_⟩
      have hset : s.supervisionExpires = t.give .part (.supervision (min 255 (s.att.expiries + 1)) t.latch) := by
        unfold State.supervisionExpires
        dsimp only
        rw [if_pos ⟨hf, hn⟩, State.setLatch, if_neg (by simp [hl]), ht]
      rw [hlatch, hn] at hset
      rw [hexec, hset]
      rfl

end Sys2Proof.Machine

/-! The Sequencer (O37 to O42): what each act leaves of the record of a breaker. -/

namespace Sys2Proof.Machine

/-! ## Writing a record -/

theorem Four.set_set {α : Type} (x : Four α) (i : Ix4) (a b : α) : (x.set i a).set i b = x.set i b := by cases i <;> rfl

theorem Four.set_get {α : Type} (x : Four α) (i : Ix4) : x.set i (x.get i) = x := by cases i <;> rfl

@[simp] theorem State.putSeq_putSeq (s : State) (f : Feeder) (q r : Seq) : (s.putSeq f q).putSeq f r = s.putSeq f r := by
  simp only [State.putSeq, Four.set_set]

@[simp] theorem State.modSeq_putSeq (s : State) (f : Feeder) (r : Seq) (g : Seq → Seq) : (s.putSeq f r).modSeq f g = s.putSeq f (g r) := by
  rw [State.modSeq, State.putSeq_seq, Four.get_set_self, State.putSeq_putSeq]

theorem State.modSeq_eq {s : State} {f : Feeder} {r : Seq} (g : Seq → Seq) (hr : r = s.seq.get f) : s.modSeq f g = s.putSeq f (g r) :=
  hr ▸ rfl

/-- The entry into LOCKOUT of a feeder with a given record (03 R53). -/
theorem State.lockout_putSeq (s : State) (f : Feeder) (r : Seq) (c : LockoutCause) (e : Option Element) :
    (s.putSeq f r).lockout f c e = { s.putSeq f { stopped r with state := .lockout c, tripElement := e } with
      att := s.att.give (.feeder f) (.lockout c r.shots) } := by
  rw [State.lockout, State.modSeq_putSeq, State.putSeq_seq, Four.get_set_self]
  rfl

theorem State.lockout_eq {s : State} {f : Feeder} {r : Seq} (c : LockoutCause) (e : Option Element) (hr : r = s.seq.get f) :
    s.lockout f c e = { s.putSeq f { stopped r with state := .lockout c, tripElement := e } with
      att := s.att.give (.feeder f) (.lockout c r.shots) } := by
  subst hr
  rfl

/-- Whatever shots, timers and element a trip leaves, its record is the stopped one with the trip drive alone asserted. -/
theorem Seq.assertTrip_stopTimers (r : Seq) (x : SeqState) (e : Option Element) (n : Nat) :
    { r.assertTrip.stopTimers with state := x, tripElement := e, tripFail := some n, huntTest := false } =
      { stopped r with state := x, tripElement := e, tripDrive := true, closeDrive := false, tripFail := some n } := by
  unfold Seq.assertTrip
  split
  · rfl
  · next h => simp [Seq.stopTimers, stopped, h]

theorem tripTime_eq (s : State) (f : Feeder) : tripTime s f = s.tripFailTime f := by
  unfold tripTime State.tripFailTime
  cases s.constants f <;> rfl

theorem closeFailTime_eq (s : State) (f : Feeder) :
    s.closeFailTime f = (match s.constants f with | some k => k.closeFailTime | none => 1000) := by
  unfold State.closeFailTime
  cases s.constants f <;> rfl

theorem windowTime_eq (s : State) (f : Feeder) : s.windowTime f = (match s.constants f with | some k => k.windowTime | none => 500) := by
  unfold State.windowTime
  cases s.constants f <;> rfl

/-- The record at the beginning of a trip. -/
def Seq.tripped (r : Seq) (o : TripOrigin) (mark : Bool) (e : Option Element) (time : Nat) : Seq :=
  { stopped r with state := .tripping o mark, tripElement := e, tripDrive := true, closeDrive := false, tripFail := some time }

/-- The beginning of a trip (03 R48): with the breaker seen OPEN it ends at once (R47). -/
theorem State.beginTrip_eq {s : State} {f : Feeder} {r : Seq} (o : TripOrigin) (mark : Bool) (e : Option Element)
    (hr : r = s.seq.get f) : s.beginTrip f o mark e =
      if r.position = .opened then (s.putSeq f (r.tripped o mark e (tripTime s f))).endTrip f o mark
      else s.putSeq f (r.tripped o mark e (tripTime s f)) := by
  have hput : s.modSeq f (fun r => { r.assertTrip.stopTimers with
      state := .tripping o mark, tripElement := e, tripFail := some (s.tripFailTime f), huntTest := false }) =
      s.putSeq f (r.tripped o mark e (tripTime s f)) := by
    rw [State.modSeq_eq _ hr, Seq.assertTrip_stopTimers, tripTime_eq]
    rfl
  unfold State.beginTrip
  dsimp only
  rw [hput, State.putSeq_seq, Four.get_set_self]
  rfl

/-- The end of a trip that the host or a hunt's end began (03 R52): LOCKOUT, the trip element kept, no offer. -/
theorem State.endTrip_hostOpen (s : State) (f : Feeder) (r : Seq) (mark : Bool) : (s.putSeq f r).endTrip f .hostOpen mark =
    { s.putSeq f { stopped r with state := .lockout .hostOpen, tripDrive := false } with
      att := s.att.give (.feeder f) (.lockout .hostOpen r.shots) } := by
  have hout := State.lockout_putSeq s f r.releaseTrip .hostOpen r.tripElement
  unfold State.endTrip
  simp only [State.modSeq_putSeq, State.putSeq_seq, Four.get_set_self]
  exact hout

theorem State.endTrip_huntEnd (s : State) (f : Feeder) (r : Seq) (mark : Bool) : (s.putSeq f r).endTrip f .huntEnd mark =
    { s.putSeq f { stopped r with state := .lockout .huntEnd, tripDrive := false } with
      att := s.att.give (.feeder f) (.lockout .huntEnd r.shots) } := by
  have hout := State.lockout_putSeq s f r.releaseTrip .huntEnd r.tripElement
  unfold State.endTrip
  simp only [State.modSeq_putSeq, State.putSeq_seq, Four.get_set_self]
  exact hout

/-! ## Causes -/

theorem Cause.mem_all (x : Cause) : x ∈ Cause.all := by cases x <;> decide

theorem Causes.any_iff (c : Causes) (k : Cause → Bool) : c.any k = true ↔ ∃ x, c.has x = true ∧ k x = true := by
  simp [Causes.any, Causes.list, Cause.mem_all]

theorem Causes.any_blocksHostClose (c : Causes) : c.any Cause.blocksHostClose = c.tagNoClose := by
  refine Bool.eq_iff_iff.mpr ((Causes.any_iff ..).trans ⟨?_, fun h => ⟨.tagNoClose, h, rfl⟩⟩)
  rintro ⟨x, hx, hk⟩
  cases x <;> first | exact hx | cases hk

/-- The causes that block a reclose are all but that of the season's hunts. -/
theorem Causes.any_blocksReclose (c : Causes) : c.any Cause.blocksReclose = true ↔ ∃ x, c.has x = true ∧ x ≠ .seasonHunt := by
  refine (Causes.any_iff ..).trans (exists_congr fun x => and_congr_right fun _ => ?_)
  cases x <;> simp [Cause.blocksReclose]

/-! ## Host commands (O37 to O39) -/

theorem SeqState.lockedOut_iff (x : SeqState) : x.lockedOut = true ↔ ∃ c, x = .lockout c := by cases x <;> simp [SeqState.lockedOut]

theorem SeqState.failed_iff (x : SeqState) : x.failed = true ↔ ∃ o, x = .breakerFail o := by cases x <;> simp [SeqState.failed]

/-- Settles O37. -/
theorem closeBreakerIssuesOrRefuses : Obligations.CloseBreakerIssuesOrRefuses := by
  rintro f s r h rfl
  have locked {c : LockoutCause} (hc : (s.seq.get f).state = .lockout c) : ¬ (s.seq.get f).state.lockedOut = false := by
    rw [hc]
    exact nofun
  refine ⟨fun hout => ?_, fun c hc ht => ?_, fun c hc ht hp => ?_, fun c hc ht hp => ?_⟩ <;> refine serve_onFeeder f h ?_ <;>
    rw [closeBreaker, onFeeder_num]
  · refine if_pos (Bool.eq_false_iff.mpr fun hlock => ?_)
    obtain ⟨c, hc⟩ := (SeqState.lockedOut_iff _).mp hlock
    exact hout c hc
  · exact (if_neg (locked hc)).trans (if_pos ((Causes.any_blocksHostClose _).trans ht))
  · refine (if_neg (locked hc)).trans ((if_neg ?_).trans (if_pos hp))
    rw [Causes.any_blocksHostClose]
    exact Bool.eq_false_iff.mp ht
  · refine (if_neg (locked hc)).trans ((if_neg ?_).trans ((if_neg (Classical.not_not.mpr hp)).trans ?_))
    · rw [Causes.any_blocksHostClose]
      exact Bool.eq_false_iff.mp ht
    · rw [closeFailTime_eq]
      rfl

/-- Settles O38. -/
theorem openBreakerActsByState : Obligations.OpenBreakerActsByState := by
  rintro f s r trip locked notice h rfl rfl rfl rfl
  have acts {x : SeqState} {u : State} (hx : (s.seq.get f).state = x) (hf : x.failed = false)
      (hu : s.restartSupervision.hostOpen f = u) : exec (.openBreaker [byte f.num]) s = .next (u.answer 15#8 (ok [])) := by
    refine serve_onFeeder f h ?_
    rw [openBreaker, onFeeder_num]
    exact (if_neg (by rw [State.restartSupervision_seq, hx, hf]; exact nofun)).trans (congrArg (·, ok []) hu)
  have trip_begins (hp : (s.seq.get f).position ≠ .opened) : s.restartSupervision.beginTrip f .hostOpen false none =
      s.restartSupervision.putSeq f ((s.seq.get f).tripped .hostOpen false none (tripTime s f)) := by
    rw [State.beginTrip_eq _ _ _ rfl]
    exact if_neg hp
  have trip_ends (hp : (s.seq.get f).position = .opened) : s.restartSupervision.beginTrip f .hostOpen false none =
      { s.restartSupervision.putSeq f { stopped (s.seq.get f) with
          state := .lockout .hostOpen, tripElement := none, tripDrive := false, closeDrive := false } with
        att := s.restartSupervision.att.give (.feeder f) (.lockout .hostOpen (s.seq.get f).shots) } := by
    rw [State.beginTrip_eq _ _ _ rfl]
    exact (if_pos hp).trans (State.endTrip_hostOpen ..)
  refine ⟨?_, ?_, fun c hx hp => ?_, fun o m hx => ?_, fun hx => ?_, fun o hx => ?_, ?_⟩
  · rintro (hx | hx | ⟨k, hx⟩ | ⟨c, hx⟩) hp
    · exact acts hx rfl (by simp only [State.hostOpen, State.restartSupervision_seq, hx]; exact trip_begins hp)
    · exact acts hx rfl (by simp only [State.hostOpen, State.restartSupervision_seq, hx]; exact trip_begins hp)
    · exact acts hx rfl (by simp only [State.hostOpen, State.restartSupervision_seq, hx]; exact trip_begins hp)
    · exact acts hx rfl (by simp only [State.hostOpen, State.restartSupervision_seq, hx]; exact (if_neg hp).trans (trip_begins hp))
  · rintro (hx | hx | ⟨k, hx⟩) hp
    · exact acts hx rfl (by simp only [State.hostOpen, State.restartSupervision_seq, hx]; exact trip_ends hp)
    · exact acts hx rfl (by simp only [State.hostOpen, State.restartSupervision_seq, hx]; exact trip_ends hp)
    · exact acts hx rfl (by simp only [State.hostOpen, State.restartSupervision_seq, hx]; exact trip_ends hp)
  · exact acts hx rfl (by simp only [State.hostOpen, State.restartSupervision_seq, hx]; exact if_pos hp)
  · exact acts hx rfl (by simp only [State.hostOpen, State.restartSupervision_seq, hx]; rfl)
  · exact acts hx rfl (by simp only [State.hostOpen, State.restartSupervision_seq, hx]; exact State.lockout_eq .hostOpen none rfl)
  · refine serve_onFeeder f h ?_
    rw [openBreaker, onFeeder_num]
    exact if_pos ((SeqState.failed_iff _).mpr ⟨o, hx⟩)
  · rintro x u hx rfl
    have hunted {v : State} (hu : (s.restartSupervision.closeHunt f (.abandoned .host) none).openFromHunt f = v) :
        exec (.openBreaker [byte f.num]) s = .next (v.answer 15#8 (ok [])) :=
      acts hx rfl (by simp only [State.hostOpen, State.restartSupervision_seq, hx]; exact hu)
    have hseq : (s.restartSupervision.closeHunt f (.abandoned .host) none).seq.get f = s.seq.get f := by
      rw [State.closeHunt_seq]
      rfl
    have htime : tripTime (s.restartSupervision.closeHunt f (.abandoned .host) none) f = tripTime s f := by
      unfold tripTime State.constants
      rw [((Touches.refl f s.restartSupervision).closeHunt _ _).store]
      rfl
    refine ⟨fun hd => hunted ?_, fun hd hp => hunted ?_, fun hd hp => hunted ?_⟩ <;> unfold State.openFromHunt <;> dsimp only <;>
      rw [hseq]
    · rw [if_pos hd]
      exact State.modSeq_eq _ hseq.symm
    · rw [if_neg (by simp [hd]), if_neg hp, State.beginTrip_eq _ _ _ hseq.symm, if_neg hp, htime]
      rfl
    · rw [if_neg (by simp [hd]), if_pos hp, State.modSeq_eq _ hseq.symm, State.lockout_putSeq]
      rfl

@[simp] theorem onOff_place (b : Bool) : onOff (if b then 0#8 else 1#8 : Byte).toNat = some b := by cases b <;> rfl

theorem onOff_none {n : Nat} (h : 1 < n) : onOff n = none := by
  obtain ⟨m, rfl⟩ := Nat.exists_eq_add_of_le' h
  rfl

theorem readTwo_num (f : Ix4) (b : Byte) : readTwo [byte f.num, b] = some (f.num, b.toNat) := by
  simp [readTwo, read1, byte_toNat f.num_small, whole]

/-- Settles O39. -/
theorem clearFailAndHostBlockAnswer : Obligations.ClearFailAndHostBlockAnswer := by
  rintro f s r h rfl
  have clears {o : TripOrigin} {u : State} (ho : (s.seq.get f).state = .breakerFail o) (hu : s.restartSupervision.clearFail f = u) :
      exec (.clearBreakerFail [byte f.num]) s = .next (u.answer 16#8 (ok [])) := by
    refine serve_onFeeder f h ?_
    rw [clearBreakerFail, onFeeder_num]
    exact (if_pos ((SeqState.failed_iff _).mpr ⟨o, ho⟩)).trans (congrArg (·, ok []) hu)
  refine ⟨fun o ho hp => clears ho ?_, fun o ho hp => clears ho ?_, fun hno => serve_onFeeder f h ?_, fun b => ?_, fun v hv => ?_⟩
  · rw [State.clearFail, State.modSeq_eq _ rfl, State.modSeq_putSeq, State.putSeq_seq, Four.get_set_self]
    exact if_pos hp
  · rw [State.clearFail, State.modSeq_eq _ rfl, State.modSeq_putSeq, State.putSeq_seq, Four.get_set_self, State.lockout_putSeq]
    exact if_neg hp
  · rw [clearBreakerFail, onFeeder_num]
    refine if_neg fun hf => ?_
    obtain ⟨o, ho⟩ := (SeqState.failed_iff _).mp hf
    exact hno o ho
  · have hrule : setHostBlock (f.num, (if b then 0#8 else 1#8 : Byte).toNat) s.restartSupervision =
        if (s.inputs.get f).hostBlock = b then (s.restartSupervision, ok [])
        else ((s.restartSupervision.putInputs f { s.inputs.get f with hostBlock := b }).derive f, ok []) := by
      simp only [setHostBlock, Ix4.ofNum_num, onOff_place]
      rfl
    by_cases hb : (s.inputs.get f).hostBlock = b
    · rw [if_pos hb] at hrule ⊢
      exact serve_answers h (readTwo_num f _) hrule
    · rw [if_neg hb] at hrule ⊢
      exact serve_answers h (readTwo_num f _) hrule
  · refine serve_answers h (readTwo_num f v) ?_
    simp [setHostBlock, onOff_none hv]

/-! ## Timers (O42) -/

theorem anyFailed_set {q : Four Seq} {f : Feeder} {r : Seq} (h : r.state.failed = true) : anyFailed (q.set f r) = true :=
  (anyFailed_iff _).mpr ⟨f, by rw [Four.get_set_self]; exact h⟩

/-- The dead timer's judgement of the block and the shot count (03 R54). -/
theorem deadEnds_blocked_iff (s : State) (f : Feeder) (r : Seq) :
    ((s.causes f).any Cause.blocksReclose = true ∨ (s.activeGroup f).shotCount ≤ r.shots) ↔
      ((s.activeGroup f).shotCount ≤ r.shots ∨ ∃ y, (s.causes f).has y = true ∧ y ≠ .seasonHunt) := by
  rw [Causes.any_blocksReclose, or_comm]

/-- Settles O42. -/
theorem sequenceTimersExpire : Obligations.SequenceTimersExpire := by
  rintro f s r rfl
  refine ⟨fun o m ht hx => ⟨_, rfl, ?_⟩, fun k ht hx => ?_, fun ht hx => ⟨fun hb => ?_, fun hshots hcauses => ⟨fun hp => ?_, fun hp => ?_⟩⟩,
    fun ht hx => congrArg _ (if_pos ⟨ht, hx⟩), fun ht => congrArg _ (if_pos ht), fun ht => congrArg _ (if_neg ht),
    fun ht => congrArg _ (if_neg ht), fun ht => congrArg _ (if_neg fun h => ht h.1), fun ht => congrArg _ (if_neg fun h => ht h.1),
    fun ht => congrArg _ (if_neg ht)⟩
  · rw [if_pos ht, State.tripFails]
    simp only [hx]
    have hbackup : anyFailed (s.seq.set f { s.seq.get f with state := .breakerFail o, tripFail := none, huntTest := false }) = true :=
      anyFailed_set rfl
    rw [← hbackup]
    rfl
  · refine congrArg _ ((if_pos ht).trans ?_)
    unfold State.closeFails
    simp only [hx]
    rw [State.closeLost, State.modSeq_eq _ rfl, State.lockout_putSeq]
    rfl
  all_goals
    refine congrArg _ ((if_pos ⟨ht, hx⟩).trans ?_)
    unfold State.deadEnds
    dsimp only
  · rw [if_pos ((deadEnds_blocked_iff ..).mpr hb), State.lockout_eq _ _ rfl]
  all_goals
    have hopen : ¬ ((s.causes f).any Cause.blocksReclose = true ∨ (s.activeGroup f).shotCount ≤ (s.seq.get f).shots) := by
      rw [deadEnds_blocked_iff]
      rintro (hle | ⟨y, hy, hne⟩)
      · omega
      · exact hne (hcauses y hy)
    rw [if_neg hopen]
  · rw [if_pos hp, closeFailTime_eq]
    rfl
  · rw [if_neg hp, State.lockout_eq _ _ rfl]
    rfl

/-! ## Position changes (O40) -/

theorem decode_iff (c : Contacts) : (c.decode = .closed ↔ c = ⟨true, false⟩) ∧ (c.decode = .opened ↔ c = ⟨false, true⟩)
    ∧ (c.decode = .travel ↔ c = ⟨false, false⟩) ∧ (c.decode = .invalid ↔ c = ⟨true, true⟩) := by
  obtain ⟨a, b⟩ := c
  cases a <;> cases b <;> simp [Contacts.decode]

theorem exec_positionChange {f : Feeder} {c : Contacts} {s : State} {p : Position} (hp : c.decode = p)
    (hc : c.decode ≠ (s.seq.get f).position) :
    exec (.decodedPositionChange f c) s = .next (State.positionChange { s with contacts := s.contacts.set f c } f p) :=
  hp ▸ congrArg _ (if_neg hc)

/-- Settles O40. -/
theorem positionChangesMoveTheSequence : Obligations.PositionChangesMoveTheSequence := by
  rintro f c s _ _ rfl rfl
  obtain ⟨h1, h2, h3, h4⟩ := decode_iff c
  refine ⟨h1, h2, h3, h4, fun hc => congrArg _ (if_pos hc), fun hc => ⟨fun hd => ?_, fun hd => ?_, fun hd => ?_, fun hd => ?_⟩⟩ <;>
    rw [exec_positionChange hd hc, hd, State.positionChange, State.modSeq_eq _ rfl]
  · rfl
  · unfold State.seenOpen
    simp only [State.putSeq_seq, Four.get_set_self]
    refine ⟨?_, ?_, fun o hx => ?_, fun m hx => ?_, fun m hx => ?_⟩
    · rintro (hx | hx) <;> simp only [hx, State.lockout_putSeq] <;> rfl
    · rintro (hx | ⟨k, hx⟩ | ⟨k, hx⟩) <;> simp only [hx]
    · simp only [hx, State.modSeq_putSeq, State.lockout_putSeq]
      rfl
    · simp only [hx, State.endTrip_hostOpen]
      rfl
    · simp only [hx, State.endTrip_huntEnd]
      rfl
  · unfold State.seenClosed
    simp only [State.putSeq_seq, Four.get_set_self]
    refine ⟨fun hx => ?_, fun hx => ?_, ?_, ?_⟩
    · simp only [hx, State.closeMade, State.modSeq_putSeq]
      rfl
    · simp only [hx, State.closeMade, State.modSeq_putSeq, windowTime_eq]
      rfl
    · rintro (hx | ⟨x, hx⟩) <;> simp only [hx, State.modSeq_putSeq] <;> rfl
    · rintro (hx | hx | ⟨o, m, hx⟩ | ⟨o, hx⟩) <;> simp only [hx]

/-! ## The end of a trip, and the offer (O41) -/

theorem Causes.first_eq_none_iff (c : Causes) (k : Cause → Bool) : c.first k = none ↔ c.any k = false := by
  simp [Causes.first, Causes.any]

theorem huntBlocker_eq (s : State) (f : Feeder) : huntBlocker s f = (s.causes f).first Cause.blocksHunt := by
  simp [huntBlocker, Causes.first, Causes.list, Cause.all, List.find?_filter, List.find?_cons, Cause.blocksHunt]

theorem huntStarted_eq (s : State) (f : Feeder) (host : Bool) (numbers : List Nat) :
    huntStarted s f host numbers = s.startHuntOn f host (s.locate f) numbers := rfl

theorem State.offerHunt_eq (s : State) (f : Feeder) : s.offerHunt f =
    if (s.activeGroup f).huntEnabled = true ∧ huntBlocker s f = none ∧ candidatesOf (s.sections.get f) (s.locate f) ≠ [] then
      huntStarted s f false (candidatesOf (s.sections.get f) (s.locate f))
    else s := by
  simp only [huntBlocker_eq, Causes.first_eq_none_iff]
  rfl

theorem Ix4.ofNum_some {n : Nat} (h1 : 1 ≤ n) (h4 : n ≤ 4) : ∃ i : Ix4, i.num = n ∧ Ix4.ofNum n = some i := by
  match n with
  | 1 => exact ⟨.n1, rfl, rfl⟩
  | 2 => exact ⟨.n2, rfl, rfl⟩
  | 3 => exact ⟨.n3, rfl, rfl⟩
  | 4 => exact ⟨.n4, rfl, rfl⟩

theorem Seq.offered_iff (r : Seq) : r.offered .protection = true ↔ r.tripElement ∈ [some Element.e1, some .e2, some .s1] := by
  cases h : r.tripElement with
  | none => simp [Seq.offered, h]
  | some e => cases e <;> simp [Seq.offered, h, Element.earth]

/-- The lockout in which a trip of origin PROTECTION ends, and its offer to the Hunt Unit (03 R52, R53). -/
def State.lockedByTrip (s : State) (f : Feeder) (r : Seq) (x : LockoutCause) : State :=
  let u := { s.putSeq f { stopped r with state := .lockout x, tripDrive := false } with att := s.att.give (.feeder f) (.lockout x r.shots) }
  if r.tripElement ∈ [some Element.e1, some .e2, some .s1] then u.offerHunt f else u

/-- The end of a trip of origin PROTECTION (03 R52). -/
theorem State.endTrip_protection (s : State) (f : Feeder) (r : Seq) (mark : Bool) : (s.putSeq f r).endTrip f .protection mark =
    if mark = true then s.lockedByTrip f r .protection
    else if r.shots < (s.activeGroup f).shotCount then
      if (s.causes f).any Cause.blocksReclose = true then s.lockedByTrip f r .blocked
      else s.putSeq f { r.releaseTrip with
        state := .deadTime, dead := some (((Ix4.ofPlace r.shots).map (s.activeGroup f).deadTimes.get).getD 0) }
    else s.lockedByTrip f r .protection := by
  have out (x : LockoutCause) : (if r.releaseTrip.offered .protection = true then
      ((s.putSeq f r.releaseTrip).lockout f x r.tripElement).offerHunt f
      else (s.putSeq f r.releaseTrip).lockout f x r.tripElement) = s.lockedByTrip f r x := by
    rw [State.lockout_putSeq, State.lockedByTrip]
    exact ite_of_iff (Seq.offered_iff _) rfl rfl
  rw [← out .protection, ← out .blocked]
  unfold State.endTrip
  simp only [State.modSeq_putSeq, State.putSeq_seq, Four.get_set_self]
  rfl

/-- Settles O41. -/
theorem tripEndDecidesTheNextState : Obligations.TripEndDecidesTheNextState := by
  refine ⟨?_, ?_⟩
  · rintro f s _ rfl
    refine ⟨fun he hb hn => (State.offerHunt_eq s f).trans (if_pos ⟨he, hb, hn⟩), fun hno => (State.offerHunt_eq s f).trans (if_neg ?_)⟩
    rintro ⟨he, hb, hn⟩
    rcases hno with h | h | h
    · exact Bool.false_ne_true (h.symm.trans he)
    · exact h hb
    · exact hn h
  · rintro f _ s mark r out rfl hx hp hr h4 hout
    have ends : exec (.decodedPositionChange f ⟨false, true⟩) s = .next
        ((State.putSeq { s with contacts := s.contacts.set f ⟨false, true⟩ } f { s.seq.get f with position := .opened }).endTrip f
          .protection mark) := by
      rw [exec_positionChange (p := .opened) rfl fun e => hp e.symm, State.positionChange, State.modSeq_eq _ rfl]
      dsimp only
      unfold State.seenOpen
      simp only [State.putSeq_seq, Four.get_set_self, hx]
    have locked (x : LockoutCause) : State.lockedByTrip { s with contacts := s.contacts.set f ⟨false, true⟩ } f
        { s.seq.get f with position := .opened } x =
        if r.tripElement ∈ [some Element.e1, some .e2, some .s1] then (out x).offerHunt f else out x := by
      rw [hout x, hr]
      rfl
    have hshots : r.shots = (s.seq.get f).shots := hr ▸ rfl
    rw [ends, State.endTrip_protection]
    refine ⟨fun hm hs hc hcauses => ?_, fun x hcase => ?_⟩
    · obtain ⟨n, hn, hof⟩ := Ix4.ofNum_some (n := r.shots + 1) (by omega) (by omega)
      have hblocks : ¬ (s.causes f).any Cause.blocksReclose = true := by
        rw [Causes.any_blocksReclose]
        rintro ⟨y, hy, hne⟩
        exact hne (hcauses y hy)
      have hplace : Ix4.ofPlace (s.seq.get f).shots = some n := hshots ▸ hof
      refine ⟨n, hn, congrArg _ ((if_neg (by simp [hm])).trans ((if_pos (hshots ▸ hs)).trans ((if_neg hblocks).trans ?_)))⟩
      rw [hr]
      dsimp only
      rw [hplace]
      rfl
    · rw [← locked x]
      rcases hcase with ⟨hm, rfl⟩ | ⟨hm, hs, hy, rfl⟩ | ⟨hm, hs, rfl⟩
      · exact congrArg _ (if_pos hm)
      · exact congrArg _ ((if_neg (by simp [hm])).trans ((if_pos (hshots ▸ hs)).trans (if_pos ((Causes.any_blocksReclose _).mpr hy))))
      · exact congrArg _ ((if_neg (by simp [hm])).trans (if_neg (hshots ▸ Nat.not_lt.mpr hs)))

end Sys2Proof.Machine

/-! Reports and elements (O26, O29 to O32). -/

namespace Sys2Proof.Machine

/-! ## The curve entry (O26) -/

/-- Of ascending breakpoints behind a first one, the last at or below a multiple gives the time, and else the first does. -/
theorem curve_entry {q : Nat} {b : Breakpoint} {rest : List Breakpoint} (h : (b :: rest).Pairwise (fun x y => x.q < y.q)) :
    ∃ k e, (b :: rest)[k]? = some e ∧ rest.foldl (fun t p => if p.q ≤ q then p.t else t) b.t = e.t ∧ (e.q ≤ q ∨ k = 0)
      ∧ ∀ l d, (b :: rest)[l]? = some d → d.q ≤ q → l ≤ k := by
  obtain ⟨r, rfl⟩ : ∃ r, rest = r.reverse := ⟨rest.reverse, rest.reverse_reverse.symm⟩
  induction r with
  | nil =>
    refine ⟨0, b, rfl, rfl, .inr rfl, fun l d hl _ => ?_⟩
    obtain ⟨hlt, -⟩ := List.getElem?_eq_some_iff.mp hl
    exact Nat.le_of_lt_succ hlt
  | cons p r ih =>
    rw [List.reverse_cons] at h ⊢
    generalize r.reverse = rest at h ih ⊢
    rw [← List.cons_append] at h ⊢
    obtain ⟨hrest, -, -⟩ := List.pairwise_append.mp h
    obtain ⟨k, e, hk, htime, hle, hmax⟩ := ih hrest
    obtain ⟨hklt, -⟩ := List.getElem?_eq_some_iff.mp hk
    rw [List.foldl_append, List.foldl_cons, List.foldl_nil]
    by_cases hp : p.q ≤ q
    · refine ⟨(b :: rest).length, p, by simp, if_pos hp, .inl hp, fun l d hl _ => ?_⟩
      obtain ⟨hlt, -⟩ := List.getElem?_eq_some_iff.mp hl
      simp only [List.length_append, List.length_singleton] at hlt
      omega
    · refine ⟨k, e, by rw [List.getElem?_append_left hklt, hk], by rw [if_neg hp, htime], hle, fun l d hl hd => ?_⟩
      rcases Nat.lt_or_ge l (b :: rest).length with hlt | hge
      · rw [List.getElem?_append_left hlt] at hl
        exact hmax l d hl hd
      · rw [List.getElem?_append_right hge, List.getElem?_singleton] at hl
        split at hl
        · cases hl
          exact absurd hd hp
        · cases hl

/-- Settles O26. -/
theorem curveEntryIsTheLargestAtMost : Obligations.CurveEntryIsTheLargestAtMost := by
  intro c q _ _ hup hfirst _
  unfold Curve.time
  cases hb : c.breakpoints with
  | nil => rw [hb] at hfirst; cases hfirst
  | cons b rest =>
    rw [hb] at hup hfirst
    have h64 : b.q = 64 := by simpa using hfirst
    obtain ⟨k, e, hk, htime, hle, hmax⟩ := curve_entry (q := q) hup
    have first : k = 0 → e.q = 64 := by
      rintro rfl
      cases hk
      exact h64
    refine ⟨k, e, hk, htime, fun h => hle.elim id fun h0 => Nat.le_trans (Nat.le_of_eq (first h0)) h, fun h => hle.elim (fun hq => ?_) id, hmax⟩
    refine Classical.byContradiction fun hk0 => ?_
    obtain ⟨hlt, hget⟩ := List.getElem?_eq_some_iff.mp hk
    have hmem : e ∈ rest := by
      obtain ⟨n, rfl⟩ := Nat.exists_eq_succ_of_ne_zero hk0
      exact hget ▸ List.getElem_mem _
    have := (List.pairwise_cons.mp hup).1 e hmem
    omega

/-! ## Elements (O29) -/

theorem picksUp_iff (e : Element) (x : ElementSettings) (p : Report) (was : Bool) : picksUp e x p was = true ↔
    (if was then 61 else 64) ≤ multiple (e.quantity p) x.pickup ∧ (e = .s1 → x.vsup ≤ p.vr) := by
  simp only [picksUp, Bool.and_eq_true, Bool.or_eq_true, decide_eq_true_eq, Decidable.imp_iff_not_or]

theorem heldDropped_iff (x : ElementSettings) (n : Nat) : heldDropped x n = true ↔ x.enabled = false ∨ x.shots.getLsbD n = false := by
  simp [heldDropped]

theorem settingOf_eq (s : State) (p : Report) (e : Element) {y : ElementSettings} (hy : y = (s.activeGroup p.feeder).elements.get e) :
    s.settingOf p e = {
      element := e
      settings := y
      shot := (s.seq.get p.feeder).shots
      curve := match s.store.curves.get y.curve with
        | .valid c _ => some c
        | _ => none
      delay := if (y.workFast = true ∧ (s.cond.get p.feeder).workMode = true)
          ∨ ((e = .p2 ∨ e = .e2) ∧ (s.seq.get p.feeder).ontoFault = true)
          ∨ ((e = .e2 ∨ e = .s1) ∧ (s.seq.get p.feeder).huntTest = true) then 0
        else y.delay
      takesXE := match s.constants p.feeder with
        | some k => decide (p.quality = .good ∧ p.xe ≠ none ∧ p.overRange = false ∧ k.locateThreshold ≤ p.ir)
        | none => false } := by
  subst hy
  have hcurve : ∀ x : Stored Curve, x.validContent = match x with | .valid c _ => some c | _ => none := fun x => by cases x <;> rfl
  have hdelay : ∀ (x : ElementSettings) (w o h : Bool), effectiveDelay e x w o h =
      if (x.workFast = true ∧ w = true) ∨ ((e = .p2 ∨ e = .e2) ∧ o = true) ∨ ((e = .e2 ∨ e = .s1) ∧ h = true) then 0 else x.delay :=
    fun x w o h => by
      unfold effectiveDelay
      refine ite_of_iff ?_ rfl rfl
      simp only [Bool.or_eq_true, Bool.and_eq_true, decide_eq_true_eq, or_assoc, and_comm]
  have hxe : mayTakeXE (s.constants p.feeder) p = match s.constants p.feeder with
      | some k => decide (p.quality = .good ∧ p.xe ≠ none ∧ p.overRange = false ∧ k.locateThreshold ≤ p.ir)
      | none => false := by
    unfold mayTakeXE
    cases s.constants p.feeder with
    | none => rfl
    | some k =>
      rw [Bool.eq_iff_iff]
      simp [Option.isSome_iff_ne_none, and_assoc]
  rw [State.settingOf, hcurve, hdelay, hxe]

/-- The evaluation of an element that is not held dropped on a report that picks it up. -/
theorem evaluate_up {x : Setting} {p : Report} {r : ElementRecord} (hlive : ¬ heldDropped x.settings x.shot = true)
    (hup : picksUp x.element x.settings p r.pickedUp = true) : evaluate x p r =
      if x.element.inverse = true then
        match x.curve with
        | some c => riseSum { r with pickedUp := true, takenXE := takeXE x p r }
          (increment (c.time (multiple (x.element.quantity p) x.settings.pickup)) x.settings.tm)
        | none => (clearedElement, false)
      else riseCount { r with pickedUp := true, takenXE := takeXE x p r } x.delay :=
  (if_neg hlive).trans (if_pos hup)

/-- Settles O29. -/
theorem elementEvaluation : Obligations.ElementEvaluation := by
  rintro x p r q up rfl hup
  have hpick : picksUp x.element x.settings p r.pickedUp = true ↔ up := (picksUp_iff ..).trans hup.symm
  refine ⟨fun hheld => if_pos ((heldDropped_iff ..).mpr hheld), fun s e y hy => settingOf_eq s p e hy, fun hen hshot => ?_⟩
  have hlive : ¬ heldDropped x.settings x.shot = true := by
    rw [heldDropped_iff]
    simp [hen, hshot]
  refine ⟨fun hdown => ?_, fun h hcurve => ?_, fun h hinv hcurve => ?_, fun h hdef => ?_, fun c h hinv hcurve => ?_⟩
  · have heval : evaluate x p r = (⟨false, if x.element.inverse then decay r.progress x.settings.resetTime else 0, false, none⟩, false) :=
      (if_neg hlive).trans (if_neg (mt hpick.mp hdown))
    rw [heval]
    exact ⟨rfl, rfl, rfl, rfl, fun hdef => if_neg (by simp [hdef])⟩
  · have heval := evaluate_up hlive (hpick.mpr h)
    rcases hcurve with hdef | hsome
    · rw [heval, if_neg (by simp [hdef])]
      rfl
    · cases hc : x.curve with
      | none => exact absurd hc hsome
      | some c =>
        rw [heval, hc]
        split <;> rfl
  · rw [evaluate_up hlive (hpick.mpr h), if_pos hinv, hcurve]
    rfl
  · rw [evaluate_up hlive (hpick.mpr h), if_neg (by simp [hdef])]
    refine ⟨rfl, rfl, ?_, ?_⟩
    · simp only [riseCount, Bool.and_eq_true, Bool.not_eq_true', decide_eq_true_eq]
      exact Iff.rfl
    · simp only [riseCount, Bool.or_eq_true, Bool.and_eq_true, Bool.not_eq_true', decide_eq_true_eq]
      cases r.operated <;> simp [fullCount]
  · rw [evaluate_up hlive (hpick.mpr h), if_pos hinv, hcurve]
    refine ⟨rfl, rfl, ?_, ?_⟩
    · simp only [riseSum, decide_eq_true_eq]
      unfold fullSum
      omega
    · simp [riseSum]

/-! ## Report frames (O30) -/

theorem word_be2 {n : Nat} (h : n < 65536) : word (byte (n / 256)) (byte n) = n := by
  simp only [word, byte, BitVec.toNat_ofNat]
  omega

/-- What is read from a whole frame with its CRC-16. -/
theorem readReport_content (f n ia ib ic ir vr xe q : Nat) : readReport (withCrc (reportContent f n ia ib ic ir vr xe q)) false =
    (Ix4.ofNum (byte f).toNat).map (fun f => clampReport f (byte n).toNat (word (byte (ia / 256)) (byte ia))
      (word (byte (ib / 256)) (byte ib)) (word (byte (ic / 256)) (byte ic)) (word (byte (ir / 256)) (byte ir))
      (word (byte (vr / 256)) (byte vr)) (word (byte (xe / 256)) (byte xe)) (Quality.ofByte (byte q).toNat)) := by
  have hcrc : crcChecks (withCrc (reportContent f n ia ib ic ir vr xe q)) = true :=
    (crcChecks_append_pair _ _ _).trans (decide_eq_true rfl)
  exact if_neg (by rw [hcrc]; simp)

theorem readReport_cut (frame : List Byte) : readReport frame true = none := by
  unfold readReport
  split
  · exact if_pos (.inl rfl)
  · rfl

theorem readReport_length {frame : List Byte} (cut : Bool) (h : frame.length ≠ 17) : readReport frame cut = none := by
  unfold readReport
  split
  · exact absurd rfl h
  · rfl

theorem readReport_crc {frame : List Byte} (cut : Bool) (h : crcChecks frame = false) : readReport frame cut = none := by
  unfold readReport
  split
  · exact if_pos (.inr h)
  · rfl

theorem exec_report_none {frame : List Byte} {cut : Bool} {s : State} (h : readReport frame cut = none) :
    exec (.intervalReport frame cut) s = .next s := by
  rw [exec, execIntervalReport, h]

theorem exec_report_some {frame : List Byte} {cut : Bool} {s : State} {p : Report} (h : readReport frame cut = some p) :
    exec (.intervalReport frame cut) s = .next (if p.usable (s.sample.get p.feeder) then s.takeReport p else s) := by
  rw [exec, execIntervalReport, h]

theorem Quality.ofByte_invalid {n : Nat} (h : 2 ≤ n) : Quality.ofByte n = .invalid := by
  obtain ⟨m, rfl⟩ := Nat.exists_eq_add_of_le' h
  rfl

/-- Settles O30. -/
theorem unusableReportsChangeNothing : Obligations.UnusableReportsChangeNothing := by
  refine ⟨fun frame s => exec_report_none (readReport_cut frame), fun frame cut s h => exec_report_none (readReport_length cut h),
    fun frame cut s h => exec_report_none (readReport_crc cut (decide_eq_false h)), fun f n ia ib ic ir vr xe q s hf h256 => ?_,
    fun f n ia ib ic ir vr xe q s hn hq hbad => ?_⟩
  · refine exec_report_none ?_
    rw [readReport_content, byte_toNat (n := f) (by omega), Ix4.ofNum_eq_none.mpr (by omega)]
    rfl
  · have hread := readReport_content f.num n ia ib ic ir vr xe q
    rw [byte_toNat f.num_small, Ix4.ofNum_num, byte_toNat (n := n) (by omega), byte_toNat (n := q) (by omega)] at hread
    refine (exec_report_some hread).trans (congrArg _ (if_neg ?_))
    simp only [Report.usable, Bool.and_eq_true, decide_eq_true_eq, Classical.not_and_iff_not_or_not, Classical.not_not]
    exact hbad.imp (fun h2 => Quality.ofByte_invalid h2) id

/-! ## Usable reports (O31) -/

theorem Report.usable_iff (p : Report) (m : Sample) : p.usable m = true ↔ p.quality ≠ .invalid ∧ m.lastSequence ≠ some p.sequence := by
  simp [Report.usable]

/-- A usable report that does not clear MEAS_LOST is evaluated. -/
theorem State.takeReport_evaluates {s : State} {p : Report}
    (h : (s.sample.get p.feeder).runCount ≠ 49 ∨ (s.causes p.feeder).measLost = false) :
    s.takeReport p = (s.putSample p.feeder ((s.sample.get p.feeder).heard p.sequence)).evaluateReport p := by
  unfold State.takeReport
  dsimp only
  rw [if_neg]
  rintro ⟨hrun, hlost⟩
  have h49 : (s.sample.get p.feeder).runCount = 49 := by
    unfold fullRun at hrun
    omega
  exact h.elim (fun hne => hne h49) fun hoff => Bool.false_ne_true (hoff.symm.trans hlost)

theorem State.putEngine_putEngine (s : State) (f : Feeder) (d e : Engine) : (s.putEngine f d).putEngine f e = s.putEngine f e := by
  simp only [State.putEngine, Four.set_set]

/-- What the elements of a report's feeder are found to be. -/
def State.foundBy (s : State) (p : Report) (e : Element) : ElementRecord × Bool :=
  evaluate (s.settingOf p e) p ((s.engine.get p.feeder).elements.get e)

/-- The elements of a feeder written as a report finds them. -/
def State.putFound (s : State) (p : Report) : State :=
  s.putEngine p.feeder { s.engine.get p.feeder with elements := Five.build (fun e => (s.foundBy p e).1) }

theorem State.evaluateReport_eq (s : State) (p : Report) : s.evaluateReport p =
    match tripOrder.filter (fun e => (s.foundBy p e).2) with
    | [] => s.putFound p
    | named :: others => (s.putFound p).handTrip p named others := by
  have hfound : ∀ e, (Five.build (fun e => evaluate (s.settingOf p e) p ((s.engine.get p.feeder).elements.get e))).get e = s.foundBy p e :=
    fun e => Five.get_build _ e
  unfold State.evaluateReport
  simp only [hfound]
  rfl

/-- The notices of a trip request (01 R21). -/
def State.tripNotices (s : State) (f : Feeder) (e : Element) : Attention :=
  if (s.seq.get f).position = .opened then
    (s.att.give (.feeder f) (.trip e (s.seq.get f).shots)).give (.feeder f) (.positionAlarm (.element e))
  else s.att.give (.feeder f) (.trip e (s.seq.get f).shots)

theorem State.handTrip_eq (s : State) (p : Report) (named : Element) (others : List Element) :
    (s.putFound p).handTrip p named others = State.tripRequest { s with
      engine := s.engine.set p.feeder ⟨Five.build (fun e => (s.foundBy p e).1),
        some (s.snapshotOf p named others (s.foundBy p named).1.takenXE)⟩
      att := s.tripNotices p.feeder named } p.feeder named := by
  have hengine : (s.putFound p).engine.get p.feeder =
      { s.engine.get p.feeder with elements := Five.build (fun e => (s.foundBy p e).1) } := by
    rw [State.putFound, State.putEngine_engine, Four.get_set_self]
  have hgiven : (if ((s.putFound p).seq.get p.feeder).position = .opened then
      ((s.putFound p).give (.feeder p.feeder) (.trip named ((s.putFound p).seq.get p.feeder).shots)).give (.feeder p.feeder)
        (.positionAlarm (.element named))
      else (s.putFound p).give (.feeder p.feeder) (.trip named ((s.putFound p).seq.get p.feeder).shots)) =
      { s.putFound p with att := s.tripNotices p.feeder named } := by
    rw [State.tripNotices]
    by_cases hp : (s.seq.get p.feeder).position = .opened
    · rw [if_pos hp]
      exact if_pos hp
    · rw [if_neg hp]
      exact if_neg hp
  have helement : (s.foundBy p named).1 = (Five.build (fun e => (s.foundBy p e).1)).get named := (Five.get_build (fun e => (s.foundBy p e).1) named).symm
  unfold State.handTrip
  dsimp only
  rw [hgiven, hengine, helement]
  congr 1
  rw [State.putFound]
  simp only [State.putEngine, Four.set_set]
  rfl

/-- What a request leaves of the samples and of the engine. -/
theorem State.tripRequest_keeps (s : State) (f : Feeder) (e : Element) : (s.tripRequest f e).sample = s.sample
    ∧ (s.tripRequest f e).engine = s.engine :=
  have h := (Touches.refl f s).tripRequest e
  ⟨h.sample, h.engine⟩

/-! ## Trip requests by state -/

/-- The record of a feeder in HUNT whose breaker a hunt request opens (03 R66). -/
def Seq.huntOpening (r : Seq) (time : Nat) : Seq :=
  { r with
    state := .hunt .opening
    tripDrive := true
    closeDrive := false
    closeFail := if r.closeDrive = true then none else r.closeFail
    tripFail := some (r.tripFail.getD time) }

/-- The record of a feeder in HUNT whose breaker is open already. -/
def Seq.huntIdle (r : Seq) : Seq := { r with state := .hunt .idle, closeDrive := false, closeFail := none, huntTest := false }

/-- HUNT_OPEN with no open asked for yet (03 R66). -/
theorem State.huntOpen_eq {s : State} {f : Feeder} {r : Seq} (hr : r = s.seq.get f) (hx : r.state ≠ .hunt .opening) : s.huntOpen f =
    if r.position = .opened then (s.putSeq f r.huntIdle, true) else (s.putSeq f (r.huntOpening (tripTime s f)), false) := by
  have hopening : { r.assertTrip with state := .hunt .opening, tripFail := r.assertTrip.tripFail.or (some (s.tripFailTime f)) } =
      r.huntOpening (tripTime s f) := by
    have hor : r.tripFail.or (some (s.tripFailTime f)) = some (r.tripFail.getD (s.tripFailTime f)) := by cases r.tripFail <;> rfl
    rw [tripTime_eq, Seq.huntOpening]
    cases hd : r.closeDrive <;> simp [Seq.assertTrip, Seq.releaseClose, hd, hor]
  unfold State.huntOpen
  dsimp only
  rw [← hr, if_neg hx, State.modSeq_eq _ hr, State.modSeq_eq _ hr, hopening]
  rfl

theorem State.testTrip_eq (s : State) (f : Feeder) (h : Hunt) (hh : s.hunts.get f = some h) : s.testTrip f =
    if h.phase = .testingClose ∨ h.phase = .testingHold then { s with hunts := s.hunts.set f (some { h with
      candidates := h.candidates.mapIdx (fun i c => if h.current = some i then { c with status := .faulted } else c)
      hold := none
      phase := .restoringOpen }) }
    else s := by
  have htest : h.phase.testing = true ↔ h.phase = .testingClose ∨ h.phase = .testingHold := by
    cases h.phase <;> simp [HuntPhase.testing]
  unfold State.testTrip
  rw [hh]
  exact ite_of_iff htest rfl rfl

/-- A trip request in HUNT IDLE. -/
theorem State.huntTrip_idle {s : State} {f : Feeder} (hx : (s.seq.get f).state = .hunt .idle) : s.huntTrip f .idle =
    if (s.seq.get f).position = .opened then s else s.putSeq f ((s.seq.get f).huntOpening (tripTime s f)) := by
  by_cases hp : (s.seq.get f).position = .opened
  · simp [State.huntTrip, hp]
  · rw [State.huntTrip, State.huntOpen_eq rfl (by rw [hx]; nofun), if_neg hp, if_neg hp]
    simp [hp]

/-- A trip request on a restore close. -/
theorem State.huntTrip_restoreClosing {s : State} {f : Feeder} (hx : (s.seq.get f).state = .hunt .restoreClosing) :
    s.huntTrip f .restoreClosing = if (s.seq.get f).position = .opened then (s.putSeq f (s.seq.get f).huntIdle).openReport f
      else s.putSeq f ((s.seq.get f).huntOpening (tripTime s f)) := by
  rw [State.huntTrip, State.huntOpen_eq rfl (by rw [hx]; nofun)]
  by_cases hp : (s.seq.get f).position = .opened <;> simp [hp]

/-- A trip request on a test: the test trip is told before the open is (08 R149). -/
theorem State.huntTrip_testing {s : State} {f : Feeder} {x : HuntService} (htest : x = .testClosing ∨ x = .testClosed)
    (hx : (s.seq.get f).state = .hunt x) : s.huntTrip f x =
      if (s.seq.get f).position = .opened then ((s.putSeq f (s.seq.get f).huntIdle).testTrip f).openReport f
      else (s.putSeq f ((s.seq.get f).huntOpening (tripTime s f))).testTrip f := by
  have hopening : x ≠ .opening := by rintro rfl; simp at htest
  have hidle : x ≠ .idle := by rintro rfl; simp at htest
  rw [State.huntTrip, State.huntOpen_eq rfl (by rw [hx]; simpa using hopening)]
  by_cases hp : (s.seq.get f).position = .opened <;> simp [hp, hopening, hidle, htest]

/-- Settles O31. -/
theorem usableReportIsEvaluated : Obligations.UsableReportIsEvaluated := by
  refine ⟨?_, ?_⟩
  · rintro f n ia ib ic ir vr xe q s p found notices taken hn hia hib hic hir hvr hxe hq hseq hrun hp rfl rfl rfl
    have hread : readReport (withCrc (reportContent f.num n ia ib ic ir vr xe q)) false = some p := by
      rw [readReport_content, byte_toNat f.num_small, Ix4.ofNum_num, byte_toNat (n := n) (by omega), byte_toNat (n := q) (by omega),
        word_be2 hia, word_be2 hib, word_be2 hic, word_be2 hir, word_be2 hvr, word_be2 hxe, hp]
      have hquality : Quality.ofByte q = if q = 0 then .good else .questionable := by
        match q, hq with
        | 0, _ => rfl
        | 1, _ => rfl
      rw [← hquality]
      rfl
    have hf : p.feeder = f := hp ▸ rfl
    have hsequence : p.sequence = n := hp ▸ rfl
    have husable : p.usable (s.sample.get p.feeder) = true := by
      rw [Report.usable_iff, hf, hsequence]
      refine ⟨?_, hseq⟩
      rw [hp]
      dsimp only
      split <;> exact nofun
    subst hf
    obtain ⟨v, hv⟩ : ∃ v, v = s.putSample p.feeder ((s.sample.get p.feeder).heard p.sequence) := ⟨_, rfl⟩
    have hsample : v.sample = s.sample.set p.feeder ⟨.valid, some 25, 0, some n, min 50 ((s.sample.get p.feeder).runCount + 1)⟩ := by
      rw [hv, ← hsequence]
      rfl
    have hfound : ∀ e, v.foundBy p e = evaluate (s.settingOf p e) p ((s.engine.get p.feeder).elements.get e) := fun e => hv ▸ rfl
    have hexec := (exec_report_some hread).trans (congrArg _ ((if_pos husable).trans (State.takeReport_evaluates hrun)))
    rw [hexec, ← hv, State.evaluateReport_eq]
    refine ⟨_, rfl, ?_⟩
    simp only [← hfound]
    cases hl : tripOrder.filter (fun e => (v.foundBy p e).2) with
    | nil =>
      have hget : (v.putFound p).engine.get p.feeder =
          { s.engine.get p.feeder with elements := Five.build (fun e => (v.foundBy p e).1) } := by
        rw [State.putFound, State.putEngine_engine, Four.get_set_self, hv]
        rfl
      refine ⟨hsample, fun e => ?_, fun g hg => ?_, fun _ => ⟨by subst hv; rfl, ?_⟩, fun e others he => ?_⟩
      · dsimp only
        rw [hget]
        exact Five.get_build (fun e => (v.foundBy p e).1) e
      · subst hv
        exact Four.get_set_other _ _ hg
      · dsimp only
        rw [hget]
      · exact absurd (hl.symm.trans he) nofun
    | cons named others =>
      dsimp only
      rw [State.handTrip_eq]
      obtain ⟨hs', he'⟩ := State.tripRequest_keeps { v with
        engine := v.engine.set p.feeder ⟨Five.build (fun e => (v.foundBy p e).1),
          some (v.snapshotOf p named others (v.foundBy p named).1.takenXE)⟩
        att := v.tripNotices p.feeder named } p.feeder named
      rw [hs', he']
      refine ⟨hsample, fun e => ?_, fun g hg => ?_, fun hno => ?_, fun e rest he => ?_⟩
      · rw [Four.get_set_self]
        exact Five.get_build (fun e => (v.foundBy p e).1) e
      · subst hv
        exact Four.get_set_other _ _ hg
      · have hmem : named ∈ tripOrder.filter (fun e => (v.foundBy p e).2) := hl ▸ List.mem_cons_self ..
        exact absurd (hno named) (by simpa using (List.mem_filter.mp hmem).2)
      · obtain ⟨rfl, rfl⟩ := List.cons.inj (hl.symm.trans he)
        refine ⟨?_, ?_⟩
        · rw [Four.get_set_self, hv]
          rfl
        · rw [← hsample]
          subst hv
          rfl
  · rintro f s e r _ _ _ rfl rfl rfl rfl
    have trips (o : Bool) : s.beginTrip f .protection o (some e) =
        if (s.seq.get f).position = .opened then
          (s.putSeq f ((s.seq.get f).tripped .protection o (some e) (tripTime s f))).endTrip f .protection o
        else s.putSeq f ((s.seq.get f).tripped .protection o (some e) (tripTime s f)) := State.beginTrip_eq _ _ _ rfl
    refine ⟨?_, fun hx => ?_, fun hx => ?_, ?_, ?_, fun hx => ?_, fun hx => ?_, fun hx => ?_, ?_, fun h hh => State.testTrip_eq s f h hh⟩
    · rintro (hx | hx) <;> simp only [State.tripRequest, hx] <;> exact trips _
    · simp only [State.tripRequest, hx]
      exact trips _
    · simp only [State.tripRequest, hx]
      exact trips _
    · rintro (hx | ⟨c, hx⟩) <;> simp only [State.tripRequest, hx]
      all_goals
        by_cases hp : (s.seq.get f).position = .opened
        · rw [if_pos hp, if_pos hp]
        · rw [if_neg hp, if_neg hp, trips, if_neg hp]
          rfl
    · rintro (⟨o, m, hx⟩ | ⟨o, hx⟩) <;> simp only [State.tripRequest, hx]
    · simp only [State.tripRequest, hx, State.huntTrip]
      rfl
    · simp only [State.tripRequest, hx, State.huntTrip_idle hx]
      rfl
    · simp only [State.tripRequest, hx, State.huntTrip_restoreClosing hx]
      rfl
    · rintro (hx | hx) <;> simp only [State.tripRequest, hx]
      · exact State.huntTrip_testing (.inl rfl) hx
      · exact State.huntTrip_testing (.inr rfl) hx

/-! ## Measurements lost and regained -/

theorem exec_watchExpiry (f : Feeder) (s : State) :
    exec (.watchExpiry f) s = .next (if (s.sample.get f).watch = some 0 then s.watchExpires f else s) := rfl

/-- Settles O32. -/
theorem measurementsLostAndRegained : Obligations.MeasurementsLostAndRegained := by
  refine ⟨fun f s hrun => ?_, fun f s hrun => ?_, fun frame p s hread hquality hseq hcount hlost => ?_⟩
  · rw [exec_watchExpiry, if_pos hrun]
    refine ⟨fun hvalid => ?_, fun hheld hfew => ?_, fun hheld hmany => ?_⟩ <;> unfold State.watchExpires
    · simp only [hvalid]
      rfl
    · simp only [hheld, if_pos (show (s.sample.get f).expiries + 1 < 5 by omega)]
      rfl
    · simp only [hheld, if_neg (show ¬ (s.sample.get f).expiries + 1 < 5 by omega)]
      rfl
  · rw [exec_watchExpiry, if_neg hrun]
  · have husable : p.usable (s.sample.get p.feeder) = true := (Report.usable_iff p _).mpr ⟨hquality, hseq⟩
    have hfull : (s.sample.get p.feeder).runCount + 1 = fullRun := by rw [hcount, fullRun]
    have hheard : (s.sample.get p.feeder).heard p.sequence = ⟨.valid, some 25, 0, some p.sequence, 50⟩ := by
      rw [Sample.heard, hcount]
      rfl
    rw [exec_report_some hread, if_pos husable]
    unfold State.takeReport
    dsimp only
    rw [if_pos ⟨hfull, hlost⟩, hheard]
    rfl

end Sys2Proof.Machine

/-! The Tag Table's commands (O43 to O46): what each field's range says, and the checks in their order. -/

namespace Sys2Proof.Machine

/-! ## Reading back what a payload lays out -/

theorem Minute.real_year {m : Minute} (h : m.real = true) : 2000 ≤ m.year ∧ m.year ≤ 2099 := by
  simp only [Minute.real, decide_eq_true_eq] at h
  omega

theorem longestMonth_le (n : Nat) : longestMonth n ≤ 31 := by
  unfold longestMonth
  split <;> decide

theorem readMinute_minuteBytes {m : Minute} (h : m.real = true) (rest : List Byte) :
    readMinute (minuteBytes m ++ rest) = some (m, rest) := by
  have hlength : monthLength m.year m.month ≤ 31 := by
    unfold monthLength
    split
    · decide
    · exact longestMonth_le _
  simp only [Minute.real, decide_eq_true_eq] at h
  obtain ⟨hy, hy', hmo, hmo', hd, hd', hh, hmi⟩ := h
  have hyear : 2000 + (m.year - 2000) = m.year := by omega
  simp [readMinute, minuteBytes, read1, byte_toNat (n := m.year - 2000) (by omega), byte_toNat (n := m.month) (by omega),
    byte_toNat (n := m.day) (by omega), byte_toNat (n := m.hour) (by omega), byte_toNat (n := m.minute) (by omega), hyear]

theorem readMany_bytes {xs : List Nat} (h : ∀ x ∈ xs, x ≤ 255) (rest : List Byte) :
    readMany xs.length (xs.flatMap be1 ++ rest) = some (xs, rest) := by
  induction xs with
  | nil => rfl
  | cons x xs ih =>
    obtain ⟨hx, hxs⟩ := List.forall_mem_cons.mp h
    have hcons : (x :: xs).flatMap be1 ++ rest = byte x :: (xs.flatMap be1 ++ rest) := rfl
    rw [hcons, List.length_cons, readMany, read1_byte hx]
    simp [ih hxs]

theorem readList_listOf {xs : List Nat} (hlen : xs.length ≤ 255) (h : ∀ x ∈ xs, x ≤ 255) (rest : List Byte) :
    readList (listOf be1 xs ++ rest) = some (xs, rest) := by
  rw [readList, listOf, List.cons_append, read1_byte hlen]
  exact readMany_bytes h rest

theorem readOpt_opt {α : Type} {enc : α → List Byte} {reader : List Byte → Option (α × List Byte)} {x : Option α} {rest : List Byte}
    (h : ∀ a, x = some a → reader (enc a ++ rest) = some (a, rest)) : readOpt reader (opt enc x ++ rest) = some (x, rest) := by
  cases x with
  | none => rfl
  | some a =>
    rw [opt, List.cons_append, readOpt, read1_byte (by decide)]
    simp [h a rfl]

theorem TagKind.ofPlace_place (k : TagKind) : TagKind.ofPlace k.place = some k := by cases k <;> rfl

theorem TagKind.place_le (k : TagKind) : k.place ≤ 2 := by cases k <;> decide

theorem TagKind.ofPlace_none {n : Nat} (h : 2 < n) : TagKind.ofPlace n = none := by
  match n, h with
  | _ + 3, _ => rfl

theorem Authority.ofPlace_place (a : Authority) : Authority.ofPlace a.place = some a := by cases a <;> rfl

theorem Authority.place_le (a : Authority) : a.place ≤ 1 := by cases a <;> decide

theorem Authority.place_of {n : Nat} {a : Authority} (h : Authority.ofPlace n = some a) : a.place = n := by
  match n, h with
  | 0, rfl | 1, rfl => rfl

/-! ## Fields in range -/

theorem holderOf_some {a n : Nat} {h : Holder} : holderOf a n = some h ↔ (h.authority.place = a ∧ h.number = n) ∧ 1 ≤ n ∧ n ≤ 9999 := by
  unfold holderOf
  constructor
  · intro e
    split at e
    · next x hx =>
      split at e
      · next hr =>
        cases e
        exact ⟨⟨Authority.place_of hx, rfl⟩, hr⟩
      · exact absurd e nofun
    · exact absurd e nofun
  · rintro ⟨⟨rfl, rfl⟩, hr⟩
    rw [Authority.ofPlace_place]
    exact if_pos hr

/-- An authority out of range, or a holder's number. -/
theorem holderOf_none {a n : Nat} (h : 1 < a ∨ n = 0 ∨ 9999 < n) : holderOf a n = none := by
  rw [Option.eq_none_iff_forall_ne_some]
  intro x hx
  obtain ⟨⟨ha, -⟩, hn⟩ := holderOf_some.mp hx
  have := x.authority.place_le
  omega

theorem sectionsInRange_iff {ns : List Nat} : sectionsInRange ns = true ↔ ns.Nodup ∧ ∀ n ∈ ns, 1 ≤ n ∧ n ≤ 16 := by
  simp [sectionsInRange]

theorem scopeInRange_iff {ns : List Nat} : scopeInRange ns = true ↔ ns.length ≤ 4 ∧ ns.Nodup ∧ ∀ n ∈ ns, 1 ≤ n ∧ n ≤ 16 := by
  simp [scopeInRange, sectionsInRange_iff]

theorem expiryInRange_iff {e : Option Minute} : expiryInRange e = true ↔ ∀ m, e = some m → m.real = true := by
  cases e <;> simp [expiryInRange]

theorem State.sectionsHeld_iff {s : State} {f : Feeder} {ns : List Nat} :
    s.sectionsHeld f ns = true ↔ ∀ n ∈ ns, ((s.sections.get f).find n).isSome = true := List.all_eq_true

theorem State.sectionsHeld_false {s : State} {f : Feeder} {ns : List Nat} :
    s.sectionsHeld f ns = false ↔ ∃ n ∈ ns, (s.sections.get f).find n = none := by
  simp [State.sectionsHeld]

theorem State.afterNow_iff {s : State} {m : Minute} : s.afterNow m = true ↔ ∃ c, s.cal.clock = some c ∧ c.minute.rank < m.rank := by
  unfold State.afterNow
  cases s.cal.clock <;> simp [Minute.laterThan]

theorem State.afterNow_false {s : State} {m : Minute} :
    s.afterNow m = false ↔ ∀ c, s.cal.clock = some c → m.rank ≤ c.minute.rank := by
  rw [Bool.eq_false_iff, Ne, State.afterNow_iff]
  simp only [not_exists, not_and, Nat.not_lt]

theorem State.findTag_none {s : State} {n : Nat} : s.findTag n = none ↔ ∀ t ∈ s.tags, t.number ≠ n := by
  simp [State.findTag]

/-- A tag that is found bears the number looked for. -/
theorem State.findTag_number {s : State} {n : Nat} {t : Tag} (h : s.findTag n = some t) : t.number = n := by
  simpa using List.find?_some h

/-! ## PLACE_TAG (O43) -/

/-- The fields of PLACE_TAG make a tag when all of them are in range (04 R72). -/
theorem PlaceTagFields.tag_some {x : PlaceTagFields} {placed : Option Stamp} {t : Tag} (h : x.tag placed = some t) :
    (∃ f, Ix4.ofNum x.feeder = some f) ∧ (∃ k, TagKind.ofPlace x.kind = some k) ∧ (∃ h, holderOf x.authority x.holder = some h)
      ∧ 1 ≤ x.number ∧ scopeInRange x.scope ∧ expiryInRange x.expiry := by
  unfold PlaceTagFields.tag at h
  split at h
  · next f k hd hf hk hh =>
    split at h
    · next hr => exact ⟨⟨f, hf⟩, ⟨k, hk⟩, ⟨hd, hh⟩, hr⟩
    · exact absurd h nofun
  · exact absurd h nofun

theorem placeTag_misfit {x : PlaceTagFields} {s : State} (h : x.tag (s.cal.clock.map Clock.stamp) = none) :
    placeTag x s = (s, refuse .badField) := by
  unfold placeTag
  rw [h]

theorem placeTag_refused {x : PlaceTagFields} {s : State} {t : Tag} {st : Status} (ht : x.tag (s.cal.clock.map Clock.stamp) = some t)
    (h : s.placeCheck t = some st) : placeTag x s = (s, refuse st) := by
  unfold placeTag
  simp only [ht, h]

theorem placeTag_placed {x : PlaceTagFields} {s : State} {t : Tag} (ht : x.tag (s.cal.clock.map Clock.stamp) = some t)
    (h : s.placeCheck t = none) : placeTag x s =
      (({ s with tags := s.tags ++ [t] }).derive t.feeder, ok (be1 (s.tags.length + 1) ++ be1 (s.tags.length + 1))) := by
  unfold placeTag
  simp only [ht, h]

/-- The payload of PLACE_TAG, read back. -/
theorem readPlaceTag_layout {n : Nat} {f : Feeder} {k : TagKind} {scope : List Nat} {h : Holder} {e : Option Minute} (hn : n ≤ 65535)
    (hlen : scope.length ≤ 4) (hscope : ∀ x ∈ scope, 1 ≤ x ∧ x ≤ 16) (hh : h.number ≤ 9999) (he : ∀ m, e = some m → m.real = true) :
    readPlaceTag (be2 n ++ [byte f.num, byte k.place] ++ listOf be1 scope ++ ([byte h.authority.place] ++ be2 h.number)
      ++ opt minuteBytes e) = some ⟨n, f.num, k.place, scope, h.authority.place, h.number, e⟩ := by
  have hexpiry : readOpt readMinute (opt minuteBytes e) = some (e, []) := by
    have hopt := readOpt_opt (enc := minuteBytes) (rest := []) fun m hm => readMinute_minuteBytes (he m hm) []
    rwa [List.append_nil] at hopt
  simp only [readPlaceTag, List.append_assoc, List.cons_append, List.nil_append, read2_be2 hn, read1_byte f.num_small,
    read1_byte (byte_small k.place_le), readList_listOf (byte_small hlen) (fun x hx => byte_small (hscope x hx).2),
    read1_byte (byte_small h.authority.place_le), read2_be2 (n := h.number) (by omega), hexpiry, whole, Option.bind_eq_bind,
    Option.bind_some, Option.pure_def]

/-- Settles O43. -/
theorem placedTagStands : Obligations.PlacedTagStands := by
  refine ⟨fun s p x hport hread hbad => serve_answers hport hread (placeTag_misfit ?_), ?_⟩
  · rw [Option.eq_none_iff_forall_ne_some]
    intro t ht
    obtain ⟨⟨f, hf⟩, ⟨k, hk⟩, ⟨h, hh⟩, hnumber, hscope, hexpiry⟩ := PlaceTagFields.tag_some ht
    obtain ⟨⟨hplace, -⟩, hholder⟩ := holderOf_some.mp hh
    obtain ⟨hlen, hnodup, hsections⟩ := scopeInRange_iff.mp hscope
    have hauthority := h.authority.place_le
    have hfeeder : ¬(x.feeder < 1 ∨ 4 < x.feeder) := fun hr => by simp [Ix4.ofNum_eq_none.mpr hr] at hf
    have hkind : ¬ 2 < x.kind := fun hr => by simp [TagKind.ofPlace_none hr] at hk
    rcases hbad with h0 | h0 | h0 | h0 | h0 | h0 | ⟨n, hn, h0⟩ | h0 | h0 | h0 | ⟨m, hm, h0⟩
    case inr.inr.inr.inr.inr.inl => exact h0 hnodup
    case inr.inr.inr.inr.inr.inr.inl =>
      have := hsections n hn
      omega
    case inr.inr.inr.inr.inr.inr.inr.inr.inr.inr => simp [expiryInRange_iff.mp hexpiry m hm] at h0
    all_goals omega
  · rintro s n f k scope h e p hport h1 hn hnodup hlen hscope hh1 hh he rfl
    obtain ⟨t, htag⟩ : ∃ t : Tag, t = ⟨n, f, k, scope, h, s.cal.clock.map (fun c => ⟨c.minute, c.second⟩), e, false, 0⟩ := ⟨_, rfl⟩
    have hfields : PlaceTagFields.tag ⟨n, f.num, k.place, scope, h.authority.place, h.number, e⟩
        (s.restartSupervision.cal.clock.map Clock.stamp) = some t := by
      have hholder : holderOf h.authority.place h.number = some h := holderOf_some.mpr ⟨⟨rfl, rfl⟩, hh1, hh⟩
      simp only [PlaceTagFields.tag, Ix4.ofNum_num, TagKind.ofPlace_place, hholder]
      rw [if_pos ⟨h1, scopeInRange_iff.mpr ⟨hlen, hnodup, hscope⟩, expiryInRange_iff.mpr he⟩, htag]
      rfl
    have hread := readPlaceTag_layout (f := f) (k := k) hn hlen hscope hh he
    have refused {st : Status} (hc : s.placeCheck t = some st) :
        exec (.placeTag _) s = .next (s.restartSupervision.answer 19#8 (refuse st)) :=
      serve_answers hport hread (placeTag_refused hfields hc)
    have hborne (hnew : ∀ u ∈ s.tags, u.number ≠ n) : ¬ (s.findTag t.number).isSome = true := by
      rw [htag, State.findTag_none.mpr hnew]
      nofun
    have hfits (hke : k = .noClose → e = none) (hks : k ≠ .huntExclude → scope = []) :
        ¬ ((t.kind = .noClose ∧ t.expiry.isSome = true) ∨ (t.kind ≠ .huntExclude ∧ t.scope ≠ [])) := by
      subst htag
      rintro (⟨hk, hexp⟩ | ⟨hk, hs⟩)
      · simp [hke hk] at hexp
      · exact hs (hks hk)
    have hheld (hsec : ∀ x ∈ scope, ((s.sections.get f).find x).isSome = true) : ¬ s.sectionsHeld t.feeder t.scope = false := by
      rw [htag, State.sectionsHeld_iff.mpr hsec]
      nofun
    refine ⟨fun hfull => refused (if_pos hfull),
      fun hroom hdup => refused ((if_neg (Nat.not_le.mpr hroom)).trans (if_pos ?_)),
      fun hroom hnew hmisfit => refused ((if_neg (Nat.not_le.mpr hroom)).trans ((if_neg (hborne hnew)).trans (if_pos ?_))),
      fun hroom hnew hke hks hsec => refused ((if_neg (Nat.not_le.mpr hroom)).trans ((if_neg (hborne hnew)).trans
        ((if_neg (hfits hke hks)).trans (if_pos ?_)))),
      fun hroom hnew hke hks hsec hpast => refused ((if_neg (Nat.not_le.mpr hroom)).trans ((if_neg (hborne hnew)).trans
        ((if_neg (hfits hke hks)).trans ((if_neg (hheld hsec)).trans (if_pos ?_))))),
      fun hroom hnew hke hks hsec hlater => serve_answers hport hread ((placeTag_placed hfields ((if_neg (Nat.not_le.mpr hroom)).trans
        ((if_neg (hborne hnew)).trans ((if_neg (hfits hke hks)).trans ((if_neg (hheld hsec)).trans (if_neg ?_)))))).trans ?_)⟩
    · refine Option.isSome_iff_ne_none.mpr fun hnone => ?_
      obtain ⟨u, hu, hun⟩ := hdup
      exact State.findTag_none.mp hnone u hu (hun.trans (by rw [htag]))
    · subst htag
      exact hmisfit.imp (fun ⟨hk, hexp⟩ => ⟨hk, Option.isSome_iff_ne_none.mpr hexp⟩) id
    · rw [htag]
      exact State.sectionsHeld_false.mpr hsec
    · obtain ⟨m, hm, hpast⟩ := hpast
      rw [htag, hm]
      exact State.afterNow_false.mpr hpast
    · rw [htag]
      cases hm : e with
      | none => nofun
      | some m =>
        have hafter : s.restartSupervision.afterNow m = true := State.afterNow_iff.mpr (hlater m hm)
        simp [hafter]
    · rw [htag]
      rfl

/-! ## AMEND_TAG (O44) -/

theorem AmendTagFields.inRange_iff {x : AmendTagFields} : x.inRange = true ↔
    1 ≤ x.number ∧ (x.expiry ≠ none ∨ x.sections ≠ none) ∧ (∀ m, x.expiry = some (some m) → m.real = true)
      ∧ ∀ ns, x.sections = some ns → ns.Nodup ∧ ∀ n ∈ ns, 1 ≤ n ∧ n ≤ 16 := by
  have hexpiry : expiryInRange x.expiry.join = true ↔ ∀ m, x.expiry = some (some m) → m.real = true := by
    simp [expiryInRange_iff, Option.join_eq_some_iff]
  have hsections : sectionsInRange (x.sections.getD []) = true ↔
      ∀ ns, x.sections = some ns → ns.Nodup ∧ ∀ n ∈ ns, 1 ≤ n ∧ n ≤ 16 := by
    cases x.sections <;> simp [sectionsInRange_iff]
  simp only [AmendTagFields.inRange, Bool.and_eq_true, decide_eq_true_eq, Bool.or_eq_true, Option.isSome_iff_ne_none, hexpiry, hsections,
    and_assoc]

/-- The new expiry of an amend does not shorten a tag's (04 R75). -/
def Tag.expiryWidens (t : Tag) (s : State) : Option (Option Minute) → Prop
  | some (some m) => ∃ old c, t.expiry = some old ∧ old.rank < m.rank ∧ s.cal.clock = some c ∧ c.minute.rank < m.rank
  | some none => t.expiry ≠ none
  | none => True

/-- A tag takes the sections that an amend adds (04 R75). -/
def Tag.scopeWidens (t : Tag) : Option (List Nat) → Prop
  | some ns => t.kind = .huntExclude ∧ t.scope ≠ [] ∧ (t.scope ++ ns.filter (fun n => !t.scope.contains n)).length ≤ 4
  | none => True

theorem State.widens_iff {s : State} {t : Tag} {x : AmendTagFields} :
    s.widens t x = true ↔ t.expiryWidens s x.expiry ∧ t.scopeWidens x.sections := by
  have hafter (old m : Minute) : (m.laterThan old && s.afterNow m) = true ↔
      old.rank < m.rank ∧ ∃ c, s.cal.clock = some c ∧ c.minute.rank < m.rank := by
    rw [Bool.and_eq_true, State.afterNow_iff]
    simp [Minute.laterThan]
  unfold State.widens
  rw [Bool.and_eq_true]
  refine and_congr ?_ ?_
  · rcases x.expiry with - | - | m
    · exact iff_of_true rfl trivial
    · exact Option.isSome_iff_ne_none
    · rcases ht : t.expiry with - | old
      · exact iff_of_false nofun (by simp [Tag.expiryWidens, ht])
      · simpa [Tag.expiryWidens, ht] using hafter old m
  · cases x.sections with
    | none => exact iff_of_true rfl trivial
    | some ns => exact decide_eq_true_iff

theorem amendTag_misfit {x : AmendTagFields} {s : State} (h : holderOf x.authority x.holder = none ∨ x.inRange = false) :
    amendTag x s = (s, refuse .badField) := by
  unfold amendTag
  split
  · rfl
  · next hd hh => exact if_pos (h.resolve_left (by rw [hh]; nofun))

/-- AMEND_TAG with its fields in range. -/
theorem amendTag_of {x : AmendTagFields} {s : State} {h : Holder} (hh : holderOf x.authority x.holder = some h) (hr : x.inRange = true) :
    amendTag x s = match s.findTag x.number with
      | none => (s, refuse .notFound)
      | some t =>
        if t.frozen then (s, refuse .frozen)
        else if t.holder ≠ h then (s.badAttempt t h, refuse .notHolder)
        else if s.widens t x = false then (s, refuse .badField)
        else if s.sectionsHeld t.feeder (x.sections.getD []) = false then (s, refuse .notFound)
        else ((s.modTag x.number x.apply).derive t.feeder, ok []) := by
  unfold amendTag
  simp only [hh]
  refine (if_neg (by rw [hr]; nofun)).trans ?_
  cases s.findTag x.number <;> rfl

/-- Settles O44. -/
theorem amendedTagIsWidened : Obligations.AmendedTagIsWidened := by
  refine ⟨fun s p x hport hread hbad => serve_answers hport hread (amendTag_misfit ?_), ?_, ?_⟩
  · refine Classical.byContradiction fun hfits => ?_
    obtain ⟨hsome, hfalse⟩ := not_or.mp hfits
    obtain ⟨h, hh⟩ := Option.ne_none_iff_exists'.mp hsome
    obtain ⟨⟨hplace, -⟩, hholder⟩ := holderOf_some.mp hh
    obtain ⟨hnumber, hchange, hexpiry, hsections⟩ := AmendTagFields.inRange_iff.mp (Bool.of_not_eq_false hfalse)
    have hauthority := h.authority.place_le
    rcases hbad with h0 | h0 | h0 | h0 | ⟨he, hs⟩ | ⟨m, hm, h0⟩ | ⟨ns, hns, h0⟩
    case inr.inr.inr.inr.inl => exact hchange.elim (· he) (· hs)
    case inr.inr.inr.inr.inr.inl => simp [hexpiry m hm] at h0
    case inr.inr.inr.inr.inr.inr =>
      obtain ⟨hnodup, hin⟩ := hsections ns hns
      rcases h0 with h0 | ⟨n, hn, h0⟩
      · exact h0 hnodup
      · have := hin n hn
        omega
    all_goals omega
  · intro s p x hport hread hnumber hauthority hholder1 hholder hchange hexpiry hsections hnew
    obtain ⟨a, ha⟩ : ∃ a : Authority, a.place = x.authority := by
      match hx : x.authority, hauthority with
      | 0, _ => exact ⟨.controlRoom, rfl⟩
      | 1, _ => exact ⟨.localPanel, rfl⟩
    have hh : holderOf x.authority x.holder = some ⟨a, x.holder⟩ := holderOf_some.mpr ⟨⟨ha, rfl⟩, hholder1, hholder⟩
    have hfind : s.restartSupervision.findTag x.number = none := State.findTag_none.mpr hnew
    refine serve_answers hport hread ((amendTag_of hh (AmendTagFields.inRange_iff.mpr ⟨hnumber, hchange, hexpiry, hsections⟩)).trans ?_)
    simp only [hfind]
  · intro s p x t h hport hread hnumber hholder1 hholder hauthority hsame hchange hexpiry hsections hfind
    have hh : holderOf x.authority x.holder = some h := holderOf_some.mpr ⟨⟨hauthority.symm, hsame.symm⟩, hholder1, hholder⟩
    have hfound : s.restartSupervision.findTag x.number = some t := hfind
    have hact := amendTag_of (s := s.restartSupervision) hh (AmendTagFields.inRange_iff.mpr ⟨hnumber, hchange, hexpiry, hsections⟩)
    simp only [hfound] at hact
    have answers {u : State} {r : Reply} (hu : amendTag x s.restartSupervision = (u, r)) :
        exec (.amendTag p) s = .next (u.answer 20#8 r) := serve_answers hport hread hu
    have live (hlive : t.frozen = false) : ¬ t.frozen = true := by rw [hlive]; nofun
    have widens (he : t.expiryWidens s x.expiry) (hs : t.scopeWidens x.sections) :
        ¬ s.restartSupervision.widens t x = false := by
      change ¬ s.widens t x = false
      rw [State.widens_iff.mpr ⟨he, hs⟩]
      nofun
    have hwidensExpiry (hm : ∀ m, x.expiry = some (some m) → ∃ old c, t.expiry = some old ∧ old.rank < m.rank
        ∧ s.cal.clock = some c ∧ c.minute.rank < m.rank) (hn : x.expiry = some none → t.expiry ≠ none) :
        t.expiryWidens s x.expiry := by
      rcases hx : x.expiry with - | - | m
      · trivial
      · exact hn hx
      · exact hm m hx
    refine ⟨fun hfrozen => answers (hact.trans (if_pos hfrozen)), fun hlive hother => answers (hact.trans ((if_neg (live hlive)).trans
        (if_pos hother))), fun hlive hown hnarrow => answers (hact.trans ((if_neg (live hlive)).trans ((if_neg (Classical.not_not.mpr hown)).trans
        (if_pos ?_)))), fun hlive hown hm hn hsec => answers (hact.trans ((if_neg (live hlive)).trans ((if_neg (Classical.not_not.mpr hown)).trans
        ?_))), fun hlive hown hm hn hsec => answers (hact.trans ((if_neg (live hlive)).trans ((if_neg (Classical.not_not.mpr hown)).trans
        ?_)))⟩
    · rw [Bool.eq_false_iff, Ne, State.widens_iff]
      rintro ⟨hexp, hscope⟩
      rcases hnarrow with ⟨m, hm, hshort⟩ | ⟨hnone, hperm⟩ | ⟨ns, hns, hshape⟩
      · rw [hm] at hexp
        obtain ⟨old, c, hold, hlater, hclock, hnow⟩ := hexp
        rcases hshort with hshort | hshort
        · exact absurd (hshort old hold) (Nat.not_le.mpr hlater)
        · exact absurd (hshort c hclock) (Nat.not_le.mpr hnow)
      · rw [hnone] at hexp
        exact hexp hperm
      · rw [hns] at hscope
        obtain ⟨hkind, hscoped, hfew⟩ := hscope
        rcases hshape with hshape | hshape | hshape
        · exact hshape hkind
        · exact hscoped hshape
        · exact absurd hfew (Nat.not_le.mpr hshape)
    · obtain ⟨ns, hns, hkind, hscoped, hfew, hmissing⟩ := hsec
      have hscope : t.scopeWidens x.sections := by
        rw [hns]
        exact ⟨hkind, hscoped, hfew⟩
      refine (if_neg (widens (hwidensExpiry hm hn) hscope)).trans (if_pos ?_)
      rw [hns]
      exact State.sectionsHeld_false.mpr hmissing
    · have hscope : t.scopeWidens x.sections := by
        cases hs : x.sections with
        | none => trivial
        | some ns =>
          obtain ⟨hkind, hscoped, hfew, -⟩ := hsec ns hs
          exact ⟨hkind, hscoped, hfew⟩
      have hheld : s.sectionsHeld t.feeder (x.sections.getD []) = true := by
        refine State.sectionsHeld_iff.mpr fun n hnmem => ?_
        cases hs : x.sections with
        | none =>
          rw [hs] at hnmem
          exact absurd hnmem nofun
        | some ns =>
          rw [hs] at hnmem
          obtain ⟨-, -, -, hall⟩ := hsec ns hs
          exact hall n hnmem
      refine (if_neg (widens (hwidensExpiry hm hn) hscope)).trans ((if_neg ?_).trans rfl)
      change ¬ s.sectionsHeld t.feeder (x.sections.getD []) = false
      rw [hheld]
      nofun

/-! ## RELEASE_TAG, SUPERVISOR_RELEASE and TAGS_RESTORED (O45, O46) -/

/-- A payload of RELEASE_TAG, whatever its tag number. -/
theorem readRelease_holder (n : Nat) (a : Byte) {m : Nat} (hm : m ≤ 65535) :
    ∃ k, readRelease (be2 n ++ [a] ++ be2 m) = some ⟨k, a.toNat, m⟩ := by
  have hm' : m / 256 % 256 * 256 + m % 256 = m := by omega
  refine ⟨n / 256 % 256 * 256 + n % 256, ?_⟩
  simp [readRelease, be2, read2, read1, whole, hm']

theorem readRelease_layout {n m : Nat} (a : Byte) (hn : n ≤ 65535) (hm : m ≤ 65535) :
    readRelease (be2 n ++ [a] ++ be2 m) = some ⟨n, a.toNat, m⟩ := by
  have hr := read2_be2 hm []
  rw [List.append_nil] at hr
  simp [readRelease, read2_be2 hn, read1, hr, whole]

theorem releaseTag_misfit {x : ReleaseFields} {s : State} (h : holderOf x.authority x.holder = none) :
    releaseTag x s = (s, refuse .badField) := by
  unfold releaseTag
  rw [h]

theorem releaseTag_unknown {x : ReleaseFields} {s : State} {h : Holder} (hh : holderOf x.authority x.holder = some h)
    (hf : s.findTag x.number = none) : releaseTag x s = (s, refuse .notFound) := by
  unfold releaseTag
  simp only [hh, hf]

/-- RELEASE_TAG of a tag that stands. -/
theorem releaseTag_of {x : ReleaseFields} {s : State} {h : Holder} {t : Tag} (hh : holderOf x.authority x.holder = some h)
    (hf : s.findTag x.number = some t) : releaseTag x s =
      if t.frozen then (s, refuse .frozen)
      else if t.holder = h then (s.retireTag t, ok [])
      else (s.badAttempt t h, refuse .notHolder) := by
  unfold releaseTag
  simp only [hh, hf]

/-- Settles O45. -/
theorem releaseRetiresOrCounts : Obligations.ReleaseRetiresOrCounts := by
  refine ⟨fun s n m a hport hm hbad => ?_, fun s n m a hport hn hm1 hm ha hnew => ?_, ?_⟩
  · obtain ⟨k, hread⟩ := readRelease_holder n a hm
    refine serve_answers hport hread (releaseTag_misfit (holderOf_none ?_))
    grind
  · obtain ⟨b, hb⟩ : ∃ b : Authority, b.place = a.toNat := by
      match hx : a.toNat, ha with
      | 0, _ => exact ⟨.controlRoom, rfl⟩
      | 1, _ => exact ⟨.localPanel, rfl⟩
    exact serve_answers hport (readRelease_layout a hn (by omega))
      (releaseTag_unknown (h := ⟨b, m⟩) (holderOf_some.mpr ⟨⟨hb, rfl⟩, hm1, hm⟩) (State.findTag_none.mpr hnew))
  · rintro s n t h p hport hn hh1 hh rfl hfind
    have hplace : (byte h.authority.place).toNat = h.authority.place := byte_toNat (byte_small h.authority.place_le)
    have hread := readRelease_layout (byte h.authority.place) hn (m := h.number) (by omega)
    rw [hplace] at hread
    have hact : releaseTag ⟨n, h.authority.place, h.number⟩ s.restartSupervision = _ :=
      releaseTag_of (h := h) (t := t) (holderOf_some.mpr ⟨⟨rfl, rfl⟩, hh1, hh⟩) hfind
    have answers {u : State} {r : Reply} (hu : releaseTag ⟨n, h.authority.place, h.number⟩ s.restartSupervision = (u, r)) :
        exec (.releaseTag (be2 n ++ [byte h.authority.place] ++ be2 h.number)) s = .next (u.answer 21#8 r) :=
      serve_answers hport hread hu
    have hnumber : t.number = n := State.findTag_number hfind
    have live (hlive : t.frozen = false) : ¬ t.frozen = true := by rw [hlive]; nofun
    refine ⟨fun hfrozen => answers (hact.trans (if_pos hfrozen)),
      fun hlive hown => answers (hact.trans ((if_neg (live hlive)).trans ((if_pos hown).trans ?_))),
      fun hlive hother hfew => answers (hact.trans ((if_neg (live hlive)).trans ((if_neg hother).trans ?_))),
      fun hlive hother htwo => answers (hact.trans ((if_neg (live hlive)).trans ((if_neg hother).trans ?_)))⟩
    · rw [State.retireTag, hnumber]
      rfl
    · have hcount : ¬ 3 ≤ t.badAttempts + 1 := by omega
      simp only [State.badAttempt, hnumber, if_neg hcount, decide_eq_false hcount]
      rfl
    · have hcount : t.badAttempts + 1 = 3 := by omega
      simp only [State.badAttempt, hnumber, hcount, Nat.le_refl, decide_true, if_true]
      rfl

theorem supervisorRelease_misfit {x : ReleaseFields} {s : State} (h : holderOf x.authority x.holder = none) :
    supervisorRelease x s = (s, refuse .badField) := by
  unfold supervisorRelease
  rw [h]

/-- SUPERVISOR_RELEASE from the control room. -/
theorem supervisorRelease_remote {x : ReleaseFields} {s : State} {h : Holder} (hh : holderOf x.authority x.holder = some h)
    (ha : h.authority ≠ .localPanel) : supervisorRelease x s = (s, refuse .notHolder) := by
  unfold supervisorRelease
  simp only [hh]
  exact if_pos ha

theorem supervisorRelease_unknown {x : ReleaseFields} {s : State} {h : Holder} (hh : holderOf x.authority x.holder = some h)
    (ha : h.authority = .localPanel) (hf : s.findTag x.number = none) : supervisorRelease x s = (s, refuse .notFound) := by
  unfold supervisorRelease
  simp only [hh, hf]
  exact if_neg (Classical.not_not.mpr ha)

theorem supervisorRelease_of {x : ReleaseFields} {s : State} {h : Holder} {t : Tag} (hh : holderOf x.authority x.holder = some h)
    (ha : h.authority = .localPanel) (hf : s.findTag x.number = some t) : supervisorRelease x s = (s.retireTag t, ok []) := by
  unfold supervisorRelease
  simp only [hh, hf]
  exact if_neg (Classical.not_not.mpr ha)

/-- Settles O46. -/
theorem supervisorReleasesAndRestores : Obligations.SupervisorReleasesAndRestores := by
  intro s hport
  have holder (a : Authority) {m : Nat} (hm1 : 1 ≤ m) (hm : m ≤ 9999) : holderOf a.place m = some ⟨a, m⟩ :=
    holderOf_some.mpr ⟨⟨rfl, rfl⟩, hm1, hm⟩
  refine ⟨fun n m a hbad hm => ?_, fun n m hm1 hm => ?_, fun n m hn hm1 hm hnew => ?_, fun n m t hn hm1 hm hfind => ?_,
    serve_answers hport rfl rfl⟩
  · obtain ⟨k, hread⟩ := readRelease_holder n a hm
    refine serve_answers hport hread (supervisorRelease_misfit (holderOf_none ?_))
    grind
  · obtain ⟨k, hread⟩ := readRelease_holder n 0#8 (m := m) (by omega)
    exact serve_answers hport hread (supervisorRelease_remote (holder .controlRoom hm1 hm) nofun)
  · exact serve_answers hport (readRelease_layout 1#8 hn (by omega))
      (supervisorRelease_unknown (holder .localPanel hm1 hm) rfl (State.findTag_none.mpr hnew))
  · have hfound : s.restartSupervision.findTag n = some t := hfind
    refine serve_answers hport (readRelease_layout 1#8 hn (by omega))
      ((supervisorRelease_of (holder .localPanel hm1 hm) rfl hfound).trans ?_)
    rw [State.retireTag, State.findTag_number (s := s) hfind]
    rfl

end Sys2Proof.Machine

/-! What a derivation works out and hands on (O51), and SELECT_GROUP (O50). -/

namespace Sys2Proof.Machine

/-! ## What a derivation leaves -/

theorem State.derive_touches (f : Feeder) (s : State) : Touches f { s with cond := s.cond.set f (s.conditionOf f) } (s.derive f) :=
  (Touches.refl f _).handOn _ _

theorem State.derive_conditions (f : Feeder) (s : State) : (s.derive f).cond = s.cond.set f (s.conditionOf f) := (s.derive_touches f).cond

theorem State.derive_condition (f : Feeder) (s : State) : (s.derive f).cond.get f = s.conditionOf f := by
  rw [s.derive_conditions f, Four.get_set_self]

/-! ## The group chosen -/

/-- A group requested by a source (06 R113). -/
theorem State.request_serves {s : State} {f : Feeder} {c : Condition} {g : GroupNo} {x : GroupSource}
    (h : (c.group, c.source) = s.request f g x) : groupServes s f c g x := by
  unfold State.request State.groupValid at h
  unfold groupServes
  cases hg : (s.store.groups.get f).get g with
  | valid a b =>
    rw [hg] at h
    exact Prod.mk.inj h
  | _ =>
    rw [hg] at h
    exact Prod.mk.inj h

theorem State.request_eq (s : State) (f : Feeder) (g : GroupNo) (x : GroupSource) : s.request f g x =
    (if ((s.store.groups.get f).get g).validContent.isSome then some g else none,
      if ((s.store.groups.get f).get g).validContent.isSome then x else .safeSubstitute) := by
  unfold State.request State.groupValid
  split <;> rfl

theorem State.conditionOf_choice (s : State) (f : Feeder) :
    ((s.conditionOf f).group, (s.conditionOf f).source) = s.chooseGroup f (s.level f) := rfl

section
variable {s : State} {f : Feeder} (n : Nat)

theorem State.chooseGroup_fallback {k : Constants} (hl : s.latch = true) (hk : s.constants f = some k) :
    s.chooseGroup f n = s.request f (k.levelMap.get 5) .fallback := by simp only [State.chooseGroup, hl, hk]

theorem State.chooseGroup_fallback_safe (hl : s.latch = true) (hk : s.constants f = none) : s.chooseGroup f n = (none, .fallback) := by
  simp only [State.chooseGroup, hl, hk]

theorem State.chooseGroup_forced {g : GroupNo} (hl : s.latch = false) (hg : (s.inputs.get f).forced = some g) :
    s.chooseGroup f n = s.request f g .forced := by simp only [State.chooseGroup, hl, hg]

theorem State.chooseGroup_levelMap {k : Constants} (hl : s.latch = false) (hg : (s.inputs.get f).forced = none)
    (hk : s.constants f = some k) : s.chooseGroup f n = s.request f (k.levelMap.get n) .levelMap := by
  simp only [State.chooseGroup, hl, hg, hk]

theorem State.chooseGroup_safe (hl : s.latch = false) (hg : (s.inputs.get f).forced = none) (hk : s.constants f = none) :
    s.chooseGroup f n = (none, .safeSubstitute) := by simp only [State.chooseGroup, hl, hg, hk]

end

/-! ## SELECT_GROUP (O50) -/

theorem forcedOfPlace_none {n : Nat} (h : 4 < n) : forcedOfPlace n = none := by
  match n, h with
  | k + 1, h =>
    change (Ix4.ofNum (k + 1)).map some = none
    rw [Ix4.ofNum_eq_none.mpr (.inr h)]
    rfl

theorem forcedOfPlace_of (x : Option GroupNo) : forcedOfPlace (match x with
    | some g => g.num
    | none => 0) = some x := by
  cases x with
  | none => rfl
  | some g => cases g <;> rfl

theorem groupByte_of (x : Option GroupNo) : groupByte x = [byte (match x with
    | some g => g.num
    | none => 0)] := by
  cases x <;> rfl

/-- SELECT_GROUP with its fields in range. -/
theorem selectGroup_of {f : Feeder} {n : Nat} {x : Option GroupNo} (hn : forcedOfPlace n = some x) (s : State) :
    selectGroup (f.num, n) s = (State.derive { s with inputs := s.inputs.set f { s.inputs.get f with forced := x } } f,
      ok (groupByte ((State.derive { s with inputs := s.inputs.set f { s.inputs.get f with forced := x } } f).cond.get f).group
        ++ be1 ((State.derive { s with inputs := s.inputs.set f { s.inputs.get f with forced := x } } f).cond.get f).source.place)) := by
  simp only [selectGroup, Ix4.ofNum_num, hn]
  rfl

/-- Settles O50. -/
theorem selectGroupForcesAndDerives : Obligations.SelectGroupForcesAndDerives := by
  intro s f hport
  refine ⟨fun v hv => ?_, fun x => ⟨_, rfl, ?_, ?_, fun hlatch => ⟨?_, ?_, ?_⟩⟩⟩
  · have hread : readTwo [byte f.num, v] = some (f.num, v.toNat) := by
      simp [readTwo, read1, byte_toNat f.num_small, whole]
    refine serve_answers hport hread ?_
    simp only [selectGroup, Ix4.ofNum_num, forcedOfPlace_none hv]
  · have hsmall : (match x with
        | some g => g.num
        | none => 0) ≤ 255 := by
      cases x with
      | none => exact Nat.zero_le _
      | some g => exact g.num_small
    refine serve_answers hport (readTwo_bytes f.num_small hsmall) ?_
    refine (selectGroup_of (forcedOfPlace_of x) _).trans ?_
    rw [groupByte_of]
    rfl
  · dsimp only
    rw [(State.derive_touches f _).inputs]
    simp
  all_goals
    obtain ⟨u, hu⟩ : ∃ u, u = { s.restartSupervision with inputs := s.inputs.set f { s.inputs.get f with forced := x } } := ⟨_, rfl⟩
    have hforced : (u.inputs.get f).forced = x := by simp [hu]
    have hlatch : u.latch = false := hu ▸ hlatch
    have hstore : u.store = s.store := by rw [hu]; rfl
    have hconstants : u.constants f = s.constants f := congrArg (fun v : Store => (v.constants.get f).validContent) hstore
    have hlevel : u.level f = s.level f := by rw [hu]; rfl
    have hchosen := u.conditionOf_choice f
    dsimp only
    rw [← hu, State.derive_condition]
  · rintro g rfl
    rw [State.chooseGroup_forced _ hlatch hforced, State.request_eq, hstore] at hchosen
    exact Prod.mk.inj hchosen
  · rintro k rfl hk
    rw [State.chooseGroup_levelMap _ hlatch hforced (hconstants.trans hk), State.request_eq, hstore, hlevel] at hchosen
    exact (Prod.mk.inj hchosen).1
  · rintro rfl hk
    rw [State.chooseGroup_safe _ hlatch hforced (hconstants.trans hk)] at hchosen
    exact Prod.mk.inj hchosen

/-! ## What a derivation works out (O51) -/

theorem State.tagged_iff (s : State) (f : Feeder) (k : TagKind) : s.tagged f k = true ↔ ∃ t, taggedBy s f k t := by
  simp [State.tagged, taggedBy]

theorem pairwise_insertNum {n : Nat} {ns : List Nat} (h : ns.Pairwise (· < ·)) : (insertNum n ns).Pairwise (· < ·) := by
  induction ns with
  | nil => simp [insertNum]
  | cons k rest ih =>
    obtain ⟨hk, hrest⟩ := List.pairwise_cons.mp h
    simp only [insertNum]
    split
    · next hlt =>
      exact List.pairwise_cons.mpr ⟨List.forall_mem_cons.mpr ⟨hlt, fun m hm => Nat.lt_trans hlt (hk m hm)⟩, h⟩
    · split
      · exact h
      · next hge hne =>
        refine List.pairwise_cons.mpr ⟨fun m hm => ?_, ih hrest⟩
        rcases (mem_insertNum ..).mp hm with rfl | hm
        · omega
        · exact hk m hm

theorem pairwise_sortNums (ns : List Nat) : (sortNums ns).Pairwise (· < ·) := by
  induction ns with
  | nil => exact .nil
  | cons n rest ih => exact pairwise_insertNum ih

theorem State.level_eq (s : State) (f : Feeder) (h : s.cal.clock ≠ none) : s.level f = s.cal.levels.get (match s.store.constants.get f with
    | .valid k _ => k.district
    | _ => .a) := by
  have hdistrict : s.district f = (match s.store.constants.get f with
      | .valid k _ => k.district
      | _ => .a) := by
    unfold State.district State.constants
    cases s.store.constants.get f <;> rfl
  rw [State.level, if_neg (by simpa using h), hdistrict]

theorem State.groupContent_valid {s : State} {f : Feeder} {g : GroupNo} {x : Group} {w : BitVec 16}
    (h : (s.store.groups.get f).get g = .valid x w) : s.groupContent f (some g) = x := by
  rw [State.groupContent, h]
  rfl

theorem Cause.setsWish_iff (y : Cause) : y.setsWish = true ↔ y ≠ .seasonHunt ∧ y ≠ .measLost := by cases y <;> decide

/-- A HUNT_EXCLUDE tag without a scope excludes the whole feeder (06 R120). -/
theorem State.exclusionOf_wholeFeeder {s : State} {f : Feeder} (h : ∃ t, taggedBy s f .huntExclude t ∧ t.scope = []) :
    s.exclusionOf f = .wholeFeeder := by
  obtain ⟨t, ⟨ht, hf, hk⟩, hscope⟩ := h
  refine if_pos (List.any_eq_true.mpr ⟨t, List.mem_filter.mpr ⟨ht, ?_⟩, ?_⟩)
  · exact decide_eq_true ⟨hf, hk⟩
  · rw [hscope]
    rfl

theorem State.exclusionOf_sections {s : State} {f : Feeder} (h : ∀ t, taggedBy s f .huntExclude t → t.scope ≠ []) :
    s.exclusionOf f = .sections (sortNums ((s.tags.filter (fun t => decide (t.feeder = f ∧ t.kind = .huntExclude))).flatMap (·.scope))) := by
  refine if_neg fun hany => ?_
  obtain ⟨t, ht, hempty⟩ := List.any_eq_true.mp hany
  obtain ⟨htags, hof⟩ := List.mem_filter.mp ht
  exact h t ⟨htags, of_decide_eq_true hof⟩ (List.isEmpty_iff.mp hempty)

/-! ## What a derivation hands on (O51) -/

/-- Whether a cause stands in a new set and did not in the old one. -/
def Causes.enters (old new : Causes) (y : Cause) : Bool := new.has y && !old.has y

theorem Causes.any_fresh (old new : Causes) (k : Cause → Bool) :
    (Causes.fresh old new).any k = (Cause.all.filter k).any (Causes.enters old new) := by
  refine Bool.eq_iff_iff.mpr ?_
  simp only [Causes.fresh, Causes.list, Causes.enters, List.any_eq_true, List.mem_filter, Bool.and_eq_true]
  exact exists_congr fun y => by grind

theorem Causes.find_fresh (old new : Causes) (k : Cause → Bool) :
    (Causes.fresh old new).find? k = (Cause.all.filter k).find? (Causes.enters old new) := by
  rw [Causes.fresh, Causes.list, List.filter_filter, List.find?_filter, List.find?_filter]
  refine congrArg (Cause.all.find? ·) (funext fun y => decide_eq_decide.mpr ?_)
  rw [Causes.enters, Bool.and_eq_true, Bool.and_eq_true]
  grind

theorem Causes.fresh_self (c : Causes) : Causes.fresh c c = [] := by
  refine List.filter_eq_nil_iff.mpr fun y hy => ?_
  rw [(List.mem_filter.mp hy).2]
  nofun

/-- The desired blocks of a feeder's RECLOSERs under a wish (06 R121). -/
theorem State.setWish_eq (s : State) (f : Feeder) (wish : Bool) : s.setWish f wish = { s with
    link := { s.link with
      devices := s.link.devices.map (fun p => (p.1, if p.2.feeder = f ∧ p.2.kind = .recloser then { p.2 with
        desiredBlock := some (if wish then .blocked else .unblocked), blockHeld := false } else p.2)) } } := by
  have hdevice (d : Device) : (if d.feeder = f then d.wished wish else d) = if d.feeder = f ∧ d.kind = .recloser then { d with
      desiredBlock := some (if wish then .blocked else .unblocked), blockHeld := false } else d := by
    rw [Device.wished]
    exact ite_and_nested.symm
  unfold State.setWish Table.mapAll
  simp only [hdevice]
  rfl

theorem State.sequenceCause_eq {s : State} {f : Feeder} {r : Seq} (hr : r = s.seq.get f) : s.sequenceCause f =
    if r.state = .deadTime then { s.putSeq f { stopped r with state := .lockout .blocked, tripElement := none } with
      att := s.att.give (.feeder f) (.lockout .blocked r.shots) } else s := by
  rw [State.sequenceCause, ← hr]
  exact ite_of_iff Iff.rfl (State.lockout_eq _ _ hr) rfl

/-- Nothing is handed on where the record stays. -/
theorem State.handOn_self (s : State) (f : Feeder) (c : Condition) : s.handOn f c c = s := by
  simp [State.handOn, Causes.fresh_self]

/-- A handing on, step by step (06 R123). -/
theorem State.handOn_eq {s s1 s2 s3 s4 : State} {f : Feeder} {old new : Condition} {fresh : Cause → Bool}
    (hfresh : ∀ y, fresh y = (new.causes.has y && !old.causes.has y))
    (h1 : s1 = { s with att := if old.level = new.level then s.att else s.att.give (.feeder f) (.levelChange old.level new.level) })
    (h2 : s2 = if old.wish = new.wish then s1 else s1.setWish f new.wish)
    (h3 : s3 = if [Cause.tagNoReclose, .tagNoClose, .seasonReclose, .measLost, .fallback, .restorePending, .hostBlock].any fresh = true
      then s2.sequenceCause f else s2)
    (h4 : s4 = match [Cause.tagNoReclose, .tagNoClose, .seasonHunt, .measLost, .fallback, .restorePending, .hostBlock].find? fresh with
      | some y => s3.huntCause f y
      | none => s3) :
    s.handOn f old new = if old.exclusion = new.exclusion then s4 else s4.huntExclusion f := by
  obtain rfl : fresh = Causes.enters old.causes new.causes := funext hfresh
  have hlevel : (if old.level = new.level then s else s.give (.feeder f) (.levelChange old.level new.level)) = s1 := by
    rw [h1]
    split <;> rfl
  have hreclose : Cause.all.filter Cause.blocksReclose =
      [.tagNoReclose, .tagNoClose, .seasonReclose, .measLost, .fallback, .restorePending, .hostBlock] := by decide
  have hhunt : Cause.all.filter Cause.blocksHunt =
      [.tagNoReclose, .tagNoClose, .seasonHunt, .measLost, .fallback, .restorePending, .hostBlock] := by decide
  unfold State.handOn
  dsimp only
  rw [hlevel, ← h2, Causes.any_fresh, hreclose, ← h3, Causes.find_fresh, hhunt]
  subst h4
  rfl

/-- Settles O51. -/
theorem derivationTouchesItsFeeder : Obligations.DerivationTouchesItsFeeder := by
  intro f s
  have h := s.derive_touches f
  refine ⟨s.derive_conditions f, ?_, ?_, fun g hg => ⟨h.seqOther g hg, h.huntOther g hg⟩, h.pending, h.contacts, h.sample, h.engine, h.store,
    h.tags, h.cal, h.inputs, h.latch, h.sections, h.port, (congrArg State.link h.rest :), h.plain, fun hhome => h.foreign ?_,
    (congrArg State.att h.rest :), h.notices, fun hsame => ?_⟩
  · rintro c rfl
    have hchosen := s.conditionOf_choice f
    refine ⟨fun hclock => if_pos (by rw [hclock]; rfl), fun hclock => s.level_eq f hclock, fun k hl hk => State.request_serves ?_,
      fun hl hk => ?_, fun g hl hg => State.request_serves ?_, fun k hl hg hk => State.request_serves ?_, fun hl hg hk => ?_,
      s.tagged_iff f _, s.tagged_iff f _, fun g x w hg hx => ?_, fun hg => ?_, rfl, rfl, rfl, rfl, s.tagged_iff f _, ?_,
      State.exclusionOf_wholeFeeder, fun hscoped => ⟨_, State.exclusionOf_sections hscoped, pairwise_sortNums _, fun n => ?_⟩⟩
    · rw [hchosen, State.chooseGroup_fallback _ hl hk]
    · rw [State.chooseGroup_fallback_safe _ hl hk] at hchosen
      exact Prod.mk.inj hchosen
    · rw [hchosen, State.chooseGroup_forced _ hl hg]
    · rw [hchosen, State.chooseGroup_levelMap _ hl hg hk]
      rfl
    · rw [State.chooseGroup_safe _ hl hg hk] at hchosen
      exact Prod.mk.inj hchosen
    · have hcontent : s.groupContent f (s.chooseGroup f (s.level f)).1 = x :=
        (congrArg (s.groupContent f) hg).trans (State.groupContent_valid hx)
      exact ⟨(decide_eq_true_iff ..).trans (by rw [hcontent]; rfl), (decide_eq_true_iff ..).trans (by rw [hcontent]; rfl)⟩
    · have hcontent : s.groupContent f (s.chooseGroup f (s.level f)).1 = safeGroup := congrArg (s.groupContent f) hg
      exact ⟨decide_eq_true (by rw [hcontent]; exact Nat.zero_le _), decide_eq_true (by rw [hcontent]; exact Nat.zero_le _)⟩
    · refine (Causes.any_iff ..).trans (exists_congr fun y => and_congr_right fun _ => Cause.setsWish_iff y)
    · rw [mem_sortNums, List.mem_flatMap]
      simp [taggedBy, and_assoc]
  · rintro old new fresh s1 s2 s3 s4 rfl rfl hfresh h1 h2 h3 h4
    have hseq : s2.seq = s.seq := by
      rw [h2]
      split <;> rw [h1]
    refine State.handOn_eq hfresh h1 (h2.trans ?_) (h3.trans ?_) h4
    · rw [State.setWish_eq, h1]
    · rw [State.sequenceCause_eq (congrArg (·.get f) hseq.symm)]
      exact (ite_of_iff and_comm rfl rfl).trans ite_and_nested
  · rintro a ⟨p, hp, ha⟩ d hd
    exact hhome p hp a ha d hd
  · unfold State.derive
    dsimp only
    rw [← hsame, Four.set_get, State.handOn_self]

end Sys2Proof.Machine

/-! The commands on devices and on the link (O55, O56). -/

namespace Sys2Proof.Machine

/-! ## WRITE_DEVICE (O55) -/

theorem DeviceKind.ofPlace_place (k : DeviceKind) : DeviceKind.ofPlace k.place = some k := by cases k <;> rfl

theorem DeviceKind.place_le (k : DeviceKind) : k.place ≤ 1 := by cases k <;> decide

theorem DeviceKind.ofPlace_none {n : Nat} (h : 1 < n) : DeviceKind.ofPlace n = none := by
  match n, h with
  | _ + 2, _ => rfl

/-- The tier that goes with a relay (09 R164). -/
def tierOf (relay : Option Nat) : Nat := if relay.isSome then 2 else 1

theorem tierOf_eq_two {relay : Option Nat} : tierOf relay = 2 ↔ relay ≠ none := by cases relay <;> simp [tierOf]

/-- The payload of WRITE_DEVICE, read back. -/
theorem readDeviceFields_layout {a : Nat} {f : Feeder} {k : DeviceKind} {relay : Option Nat} (ha : a ≤ 30)
    (hr : ∀ r, relay = some r → r ≤ 255) :
    readDeviceFields ([byte a, byte f.num, byte k.place, if relay.isSome then 2#8 else 1#8] ++ opt be1 relay)
      = some ⟨a, f.num, k.place, tierOf relay, relay⟩ := by
  have hrelay : readOpt read1 (opt be1 relay) = some (relay, []) := by
    have hopt := readOpt_opt (enc := be1) (reader := read1) (rest := []) fun r hx => read1_byte (hr r hx) []
    rwa [List.append_nil] at hopt
  have htier : (if relay.isSome then 2#8 else 1#8 : Byte) = byte (tierOf relay) := by cases relay <;> rfl
  have hsmall : tierOf relay ≤ 255 := by cases relay <;> exact Nat.le_of_ble_eq_true rfl
  simp only [readDeviceFields, htier, List.cons_append, List.nil_append, read1_byte (byte_small ha), read1_byte f.num_small,
    read1_byte (byte_small k.place_le), read1_byte hsmall, hrelay, whole, Option.bind_eq_bind, Option.bind_some, Option.pure_def]

theorem DeviceFields.inRange_of {a : Nat} (f : Feeder) (k : DeviceKind) (relay : Option Nat) (ha1 : 1 ≤ a) (ha : a ≤ 30) :
    DeviceFields.inRange ⟨a, f.num, k.place, tierOf relay, relay⟩ = some (f, k) := by
  simp only [DeviceFields.inRange, Ix4.ofNum_num, DeviceKind.ofPlace_place]
  refine if_pos ⟨ha1, ha, ?_⟩
  cases relay <;> simp [tierOf]

theorem DeviceFields.inRange_some {x : DeviceFields} {p : Feeder × DeviceKind} (h : x.inRange = some p) :
    (∃ f, Ix4.ofNum x.feeder = some f) ∧ (∃ k, DeviceKind.ofPlace x.kind = some k) ∧ 1 ≤ x.address ∧ x.address ≤ 30
      ∧ ((x.tier = 1 ∧ x.relay = none) ∨ (x.tier = 2 ∧ x.relay.isSome = true)) := by
  unfold DeviceFields.inRange at h
  split at h
  · next f k hf hk =>
    split at h
    · next hr => exact ⟨⟨f, hf⟩, ⟨k, hk⟩, hr⟩
    · exact absurd h nofun
  · exact absurd h nofun

theorem relayHolds_iff {t : Table Device} {f : Feeder} {a r : Nat} :
    relayHolds t f a r = true ↔ r ≠ a ∧ ∃ e, t.find r = some e ∧ e.relay = none ∧ e.feeder = f := by
  unfold relayHolds
  cases t.find r <;> simp

/-- Every relay that a record would name holds (09 R165 check 3). -/
theorem relays_iff {t : Table Device} {f : Feeder} {a : Nat} {relay : Option Nat} : (relay.map (relayHolds t f a)).getD true = true ↔
    ∀ r, relay = some r → r ≠ a ∧ ∃ e, t.find r = some e ∧ e.relay = none ∧ e.feeder = f := by
  cases relay with
  | none => simp
  | some r => simpa using relayHolds_iff

theorem isRelay_iff {t : Table Device} {a : Nat} : isRelay t a = true ↔ ∃ q ∈ t, q.1 ≠ a ∧ q.2.relay = some a := by
  simp only [isRelay, List.any_eq_true, decide_eq_true_eq]

theorem State.heads_iff {s : State} {a : Nat} : s.heads a = true ↔ ∃ f, ∃ q ∈ s.sections.get f, q.2.head = some a := by
  simp [State.heads, headed, Ix4.mem_all]

theorem Link.busy_iff {l : Link} {a : Nat} {d : Device} : l.busy a d = true ↔ d.inFlight ≠ none ∨ a ∈ l.resends := by
  simp [Link.busy, Option.isSome_iff_ne_none]

theorem writeDevice_misfit {x : DeviceFields} {s : State} (h : x.inRange = none) : writeDevice x s = (s, refuse .badField) := by
  unfold writeDevice
  rw [h]

theorem writeDevice_refused {x : DeviceFields} {s : State} {f : Feeder} {k : DeviceKind} {st : Status} (h : x.inRange = some (f, k))
    (hc : s.deviceCheck f x = some st) : writeDevice x s = (s, refuse st) := by
  unfold writeDevice
  simp only [h, hc]

theorem writeDevice_written {x : DeviceFields} {s : State} {f : Feeder} {k : DeviceKind} (h : x.inRange = some (f, k))
    (hc : s.deviceCheck f x = none) :
    writeDevice x s = (s.putDevices (s.link.devices.put x.address (s.writtenDevice f k x)), ok []) := by
  unfold writeDevice
  simp only [h, hc]

section
variable {s : State} {f : Feeder} {x : DeviceFields}

theorem State.deviceCheck_full (hnew : s.link.devices.find x.address = none) (hfull : 24 ≤ s.link.devices.length) :
    s.deviceCheck f x = some .full := if_pos ⟨by rw [hnew]; rfl, hfull⟩

/-- With room in the table, the relay is judged (09 R165 check 3). -/
theorem State.deviceCheck_room (hroom : s.link.devices.find x.address = none → s.link.devices.length < 24) : s.deviceCheck f x =
    if (x.relay.map (relayHolds s.link.devices f x.address)).getD true = false then some .badField
    else
      match s.link.devices.find x.address with
      | none => none
      | some d =>
        if s.link.busy x.address d ∨ d.owner = .hunt then some .inUse
        else if d.feeder ≠ f ∧ s.heads x.address then some .inUse
        else if d.relay = none ∧ (x.tier = 2 ∨ d.feeder ≠ f) ∧ isRelay s.link.devices x.address then some .inUse
        else none :=
  if_neg fun ⟨hnew, hfull⟩ => absurd (hroom (by simpa using hnew)) (Nat.not_lt.mpr hfull)

theorem State.deviceCheck_badRelay (hroom : s.link.devices.find x.address = none → s.link.devices.length < 24)
    (hr : ¬ (x.relay.map (relayHolds s.link.devices f x.address)).getD true = true) : s.deviceCheck f x = some .badField := by
  rw [State.deviceCheck_room hroom]
  exact if_pos (Bool.eq_false_iff.mpr hr)

theorem State.deviceCheck_new (hroom : s.link.devices.length < 24)
    (hr : (x.relay.map (relayHolds s.link.devices f x.address)).getD true = true) (hnew : s.link.devices.find x.address = none) :
    s.deviceCheck f x = none := by
  rw [State.deviceCheck_room fun _ => hroom]
  refine (if_neg (by rw [hr]; nofun)).trans ?_
  simp only [hnew]

end

/-- A record may be rewritten (09 R165 checks 4 to 6). -/
def State.mayRewrite (s : State) (f : Feeder) (a : Nat) (relay : Option Nat) (d : Device) : Prop :=
  (d.inFlight = none ∧ a ∉ s.link.resends ∧ d.owner = .host)
  ∧ (d.feeder ≠ f → ∀ g, ∀ q ∈ s.sections.get g, q.2.head ≠ some a)
  ∧ (d.relay = none → (relay ≠ none ∨ d.feeder ≠ f) → ∀ q ∈ s.link.devices, q.1 ≠ a → q.2.relay ≠ some a)

theorem State.deviceCheck_held {s : State} {f : Feeder} {a m n : Nat} {relay : Option Nat} {d : Device}
    (hr : (relay.map (relayHolds s.link.devices f a)).getD true = true) (hd : s.link.devices.find a = some d) :
    (s.mayRewrite f a relay d → s.deviceCheck f ⟨a, m, n, tierOf relay, relay⟩ = none)
    ∧ (¬ s.mayRewrite f a relay d → s.deviceCheck f ⟨a, m, n, tierOf relay, relay⟩ = some .inUse) := by
  rw [State.deviceCheck_room fun hnone => by simp [hd] at hnone]
  simp only [hd, hr, Bool.true_eq_false, if_false, Link.busy_iff, isRelay_iff, tierOf_eq_two]
  refine ⟨fun ⟨⟨hflight, hresend, howner⟩, hstays, hunnamed⟩ => ?_, fun hno => ?_⟩
  · refine (if_neg ?_).trans ((if_neg ?_).trans (if_neg ?_))
    · rintro ((h | h) | h)
      · exact h hflight
      · exact hresend h
      · exact absurd (howner.symm.trans h) nofun
    · rintro ⟨hf, hheads⟩
      obtain ⟨g, q, hq, hh⟩ := State.heads_iff.mp hheads
      exact hstays hf g q hq hh
    · rintro ⟨htier, hmoved, q, hq, hne, hh⟩
      exact hunnamed htier hmoved q hq hne hh
  · split
    · rfl
    · next hfree =>
      split
      · rfl
      · next hstays =>
        refine if_pos ?_
        refine Classical.byContradiction fun hunnamed => ?_
        refine hno ⟨⟨?_, fun h => hfree (.inl (.inr h)), ?_⟩, fun hf g q hq hh => hstays ⟨hf, State.heads_iff.mpr ⟨g, q, hq, hh⟩⟩,
          fun htier hmoved q hq hne hh => hunnamed ⟨htier, hmoved, q, hq, hne, hh⟩⟩
        · refine Classical.byContradiction fun h => ?_
          exact hfree (.inl (.inl h))
        · cases ho : d.owner with
          | host => rfl
          | hunt => exact absurd (.inr ho) hfree

/-- A RECLOSER's record, new or rewritten, takes its desired block from the wish (09 R165, 06 R121). -/
theorem wished_newDevice (f : Feeder) (k : DeviceKind) (relay : Option Nat) (wish : Bool) : (newDevice f k relay).wished wish =
    { newDevice f k relay with
      desiredBlock := if k = .recloser then some (if wish then .blocked else .unblocked) else none } := by
  cases k <;> rfl

theorem wished_rewrite (f : Feeder) (k : DeviceKind) (relay : Option Nat) (wish : Bool) (e : Device) :
    (e.rewrite f k relay).wished wish = { newDevice f k relay with
      desired := e.desired
      owner := e.owner
      desiredBlock := if k = .recloser then some (if wish then .blocked else .unblocked) else none
      inFlight := e.inFlight
      lastTag := e.lastTag } := by
  cases k <;> rfl

/-! ## DELETE_DEVICE and READ_DEVICE (O55) -/

theorem onDevice_range {n : Nat} {s : State} {k : Device → State × Reply} (h : n = 0 ∨ 30 < n) : onDevice n s k = (s, refuse .badField) :=
  if_neg (by omega)

theorem onDevice_found {n : Nat} {s : State} {k : Device → State × Reply} {d : Device} (h1 : 1 ≤ n) (hn : n ≤ 30)
    (hd : s.link.devices.find n = some d) : onDevice n s k = k d := by
  unfold onDevice
  rw [if_pos ⟨h1, hn⟩]
  simp only [hd]

theorem onDevice_missing {n : Nat} {s : State} {k : Device → State × Reply} (h1 : 1 ≤ n) (hn : n ≤ 30)
    (hd : s.link.devices.find n = none) : onDevice n s k = (s, refuse .notFound) := by
  unfold onDevice
  rw [if_pos ⟨h1, hn⟩]
  simp only [hd]

theorem deleteDevice_found {n : Nat} {s : State} {d : Device} (h1 : 1 ≤ n) (hn : n ≤ 30) (hd : s.link.devices.find n = some d) :
    deleteDevice n s = if s.heads n = true ∨ isRelay s.link.devices n = true ∨ s.link.busy n d = true then (s, refuse .inUse)
      else (s.putDevices (s.link.devices.erase n), ok []) := onDevice_found h1 hn hd

/-- Settles O55. -/
theorem deviceCommandsAnswer : Obligations.DeviceCommandsAnswer := by
  intro s a hport ha1 ha
  refine ⟨fun p x hread hbad => serve_answers hport hread (writeDevice_misfit ?_), ?_, fun b hb => ⟨?_, ?_⟩, ?_, fun d hd => ⟨?_, ?_, ?_⟩,
    fun hnew => ⟨?_, ?_⟩⟩
  · rw [Option.eq_none_iff_forall_ne_some]
    intro p hp
    obtain ⟨⟨f, hf⟩, ⟨k, hk⟩, hin⟩ := DeviceFields.inRange_some hp
    have hfeeder : ¬(x.feeder < 1 ∨ 4 < x.feeder) := fun hr => by simp [Ix4.ofNum_eq_none.mpr hr] at hf
    have hkind : ¬ 1 < x.kind := fun hr => by simp [DeviceKind.ofPlace_none hr] at hk
    obtain ⟨haddress, haddress', ⟨htier, hrelay⟩ | ⟨htier, hrelay⟩⟩ := hin
    · rcases hbad with h | h | h | h | h | h | h | ⟨-, h⟩ | ⟨h, -⟩
      case inr.inr.inr.inr.inr.inr.inr.inl => exact h hrelay
      all_goals omega
    · rcases hbad with h | h | h | h | h | h | h | ⟨h, -⟩ | ⟨-, h⟩
      case inr.inr.inr.inr.inr.inr.inr.inr => simp [h] at hrelay
      all_goals omega
  · rintro f k relay p t room relays free stays unnamed rfl rfl hsmall hroom hrelays hfree hstays hunnamed
    have hread := readDeviceFields_layout (a := a) (f := f) (k := k) ha hsmall
    have hin := DeviceFields.inRange_of f k relay ha1 ha
    have refused {st : Status} (hc : s.deviceCheck f ⟨a, f.num, k.place, tierOf relay, relay⟩ = some st) :
        exec (.writeDevice _) s = .next (s.restartSupervision.answer 50#8 (refuse st)) :=
      serve_answers hport hread (writeDevice_refused hin hc)
    rw [hroom, hrelays, hfree, hstays, hunnamed, ← relays_iff]
    refine ⟨fun hno => ?_, fun hr hno => refused (State.deviceCheck_badRelay hr hno), fun hr hrel hno => refused ?_,
      fun hr hrel hfree hstays hunnamed => ?_⟩
    · obtain ⟨hnew, hfull⟩ := Classical.not_imp.mp hno
      exact refused (State.deviceCheck_full hnew (Nat.not_lt.mp hfull))
    · cases hd : s.link.devices.find a with
      | none => exact absurd ⟨fun e he => absurd (hd.symm.trans he) nofun, fun e he => absurd (hd.symm.trans he) nofun,
          fun e he => absurd (hd.symm.trans he) nofun⟩ hno
      | some d =>
        refine (State.deviceCheck_held hrel hd).2 fun ⟨hfree, hstays, hunnamed⟩ => hno ?_
        simp only [hd, Option.some.injEq, forall_eq']
        exact ⟨hfree, hstays, hunnamed⟩
    · refine ⟨_, serve_answers hport hread (writeDevice_written hin ?_), rfl⟩
      cases hd : s.link.devices.find a with
      | none => exact State.deviceCheck_new (hr hd) hrel hd
      | some d => exact (State.deviceCheck_held hrel hd).1 ⟨hfree d hd, hstays d hd, hunnamed d hd⟩
  · exact serve_answers hport rfl (onDevice_range hb)
  · exact serve_answers hport rfl (onDevice_range hb)
  · intro f k relay d hrelays hfits hd
    have hread := readDeviceFields_layout (a := a) (f := f) (k := k) (relay := relay) ha fun r hr => (hrelays r hr).2.1
    have hin := DeviceFields.inRange_of f k relay ha1 ha
    have hrel : (relay.map (relayHolds s.link.devices f a)).getD true = true :=
      relays_iff.mpr fun r hr => ⟨(hrelays r hr).1, (hrelays r hr).2.2⟩
    have written (hc : s.deviceCheck f ⟨a, f.num, k.place, tierOf relay, relay⟩ = none)
        (hw : s.writtenDevice f k ⟨a, f.num, k.place, tierOf relay, relay⟩ = d) :
        exec (.writeDevice _) s = .next ((s.restartSupervision.putDevices (s.link.devices.put a d)).answer 50#8 (ok [])) :=
      hw ▸ serve_answers hport hread (writeDevice_written hin hc)
    rcases hfits with ⟨hnew, hroom, hdesired, howner, hlast, hflight⟩ | ⟨e, he, hflight, hresend, howner, hstays, hunnamed, hdesired,
      howner', hlast, hflight'⟩
    · refine written (State.deviceCheck_new hroom hrel hnew) (Eq.trans ?_ hd.symm)
      simp only [State.writtenDevice, hnew, wished_newDevice, hdesired, howner, hlast, hflight]
      rfl
    · refine written ((State.deviceCheck_held hrel he).1 ⟨⟨hflight, hresend, howner⟩, fun hmoved => ?_, fun htier hmoved => ?_⟩)
        (Eq.trans ?_ hd.symm)
      · exact hstays.resolve_left hmoved
      · rcases hunnamed with h | ⟨hnone, hsame⟩ | h
        · exact absurd htier h
        · exact absurd hmoved (by rw [hnone, hsame]; simp)
        · exact h
      · simp only [State.writtenDevice, he, wished_rewrite, hdesired, howner, howner', hlast, hflight, hflight']
        rfl
  · exact serve_answers hport (readByte_byte (byte_small ha)) (onDevice_found ha1 ha hd)
  · intro huse
    refine serve_answers hport (readByte_byte (byte_small ha)) ((deleteDevice_found (s := s.restartSupervision) ha1 ha hd).trans (if_pos ?_))
    rw [State.heads_iff, isRelay_iff, Link.busy_iff]
    exact huse
  · intro hheads hrelay hflight hresend
    refine serve_answers hport (readByte_byte (byte_small ha)) ((deleteDevice_found (s := s.restartSupervision) ha1 ha hd).trans ((if_neg ?_).trans rfl))
    rw [State.heads_iff, isRelay_iff, Link.busy_iff]
    rintro (⟨f, q, hq, hh⟩ | ⟨q, hq, hne, hr⟩ | hf | hf)
    · exact hheads f q hq hh
    · exact hrelay q hq hne hr
    · exact hf hflight
    · exact hresend hf
  · exact serve_answers hport (readByte_byte (byte_small ha)) (onDevice_missing ha1 ha hnew)
  · exact serve_answers hport (readByte_byte (byte_small ha)) (onDevice_missing ha1 ha hnew)

/-! ## ORDER_SWITCH, SET_LINK_LIMIT and LINK_CLEAR (O56) -/

/-- The byte of a desired position: OPEN, CLOSED, NONE (09 R167). -/
def desiredPlace : Option SwitchPos → Nat
  | some .opened => 0
  | some .closed => 1
  | none => 2

theorem desiredOfPlace_place (x : Option SwitchPos) : desiredOfPlace (desiredPlace x) = some x := by rcases x with - | - | - <;> rfl

theorem desiredPlace_le (x : Option SwitchPos) : desiredPlace x ≤ 2 := by rcases x with - | - | - <;> decide

/-- ORDER_SWITCH to a device that no hunt owns. -/
theorem orderSwitch_of {a n : Nat} {x : Option SwitchPos} {s : State} (ha1 : 1 ≤ a) (ha : a ≤ 30) (hn : desiredOfPlace n = some x) :
    orderSwitch (a, n) s = match s.link.devices.find a with
      | none => (s, refuse .notFound)
      | some d =>
        if d.owner = .hunt then (s, refuse .inUse)
        else (s.modDevice a (fun d => { d with desired := x, posHeld := false }), ok []) := by
  unfold orderSwitch
  simp only [hn]
  cases hd : s.link.devices.find a with
  | none => exact onDevice_missing ha1 ha hd
  | some d => exact onDevice_found ha1 ha hd

theorem desiredOfPlace_none {n : Nat} (h : 2 < n) : desiredOfPlace n = none := by
  match n, h with
  | _ + 3, _ => rfl

theorem orderSwitch_range {a n : Nat} {s : State} (h : a = 0 ∨ 30 < a ∨ 2 < n) : orderSwitch (a, n) s = (s, refuse .badField) := by
  unfold orderSwitch
  cases hn : desiredOfPlace n with
  | none => rfl
  | some x =>
    have hle : ¬ 2 < n := fun hgt => by simp [desiredOfPlace_none hgt] at hn
    exact onDevice_range (by omega)

/-- No device of a table has an acknowledged position. -/
def Table.unknown (t : Table Device) : Prop := ∀ p ∈ t, p.2.ack = none

theorem Table.unknown_of_plain {t u : Table Device} (h : u.plain = t.plain) (ht : t.unknown) : u.unknown := by
  intro p hp
  have hm : (p.1, p.2.plain) ∈ t.plain := h ▸ List.mem_map.mpr ⟨p, hp, rfl⟩
  obtain ⟨q, hq, hqp⟩ := List.mem_map.mp hm
  have hack : q.2.plain.ack = p.2.plain.ack := congrArg Device.ack (Prod.mk.inj hqp).2
  exact hack.symm.trans (ht q hq)

/-- UNKNOWN positions match nothing (08 R141). -/
theorem allMatch_unknown {t : Table Device} (h : t.unknown) (ns : List Nat) : allMatch t ns = true ↔ ns = [] := by
  cases ns with
  | nil => exact iff_of_true rfl rfl
  | cons a rest =>
    have hno : ((t.find a).map Device.matched).getD false = false := by
      cases hd : t.find a with
      | none => rfl
      | some d =>
        have hack : d.ack = none := h (a, d) (Table.find_mem hd)
        simp [Device.matched, hack]
    exact iff_of_false (by simp [allMatch, hno]) nofun

/-- A hunt told that its devices are UNKNOWN (09 R181, log 38). -/
theorem State.judgeNeeded_unknown {s : State} (hs : s.link.devices.unknown) (f : Feeder) : s.judgeNeeded f = match s.hunts.get f with
    | some h =>
      if h.named = [] then
        if h.phase = .isolatingDevices then s.isolated f h
        else if h.phase = .restoringDevices then s.askRestoreClose f h
        else s
      else s
    | none => s := by
  unfold State.judgeNeeded
  cases s.hunts.get f with
  | none => rfl
  | some h =>
    refine ite_of_iff (allMatch_unknown hs h.named) ?_ rfl
    cases h.phase <;> rfl

/-- What LINK_CLEAR does with the hunt of a feeder. -/
def State.clearTold (s : State) (f : Feeder) : State :=
  match s.hunts.get f with
  | some h =>
    if h.named = [] ∧ (s.link.devices.any (fun p => decide (p.2.feeder = f ∧ p.2.owner = .hunt))) = true then
      if h.phase = .isolatingDevices then s.isolated f h
      else if h.phase = .restoringDevices then s.askRestoreClose f h
      else s
    else s
  | none => s

theorem State.clearTold_eq {s : State} (hs : s.link.devices.unknown) (f : Feeder) :
    (if s.ownsDevice f then s.judgeNeeded f else s) = s.clearTold f := by
  rw [State.judgeNeeded_unknown hs]
  unfold State.clearTold
  cases s.hunts.get f with
  | none => exact ite_self _
  | some h =>
    dsimp only
    rw [ite_and_nested]
    by_cases hnamed : h.named = []
    · simp only [hnamed, if_true]
      rfl
    · simp only [if_neg hnamed]
      exact ite_self _

theorem State.clearTold_unknown {s : State} (hs : s.link.devices.unknown) (f : Feeder) : (s.clearTold f).link.devices.unknown := by
  rw [← State.clearTold_eq hs]
  split
  · exact Table.unknown_of_plain (Touches.refl f s).judgeNeeded.plain hs
  · exact hs

/-- The tellings of LINK_CLEAR, feeder by feeder. -/
theorem State.foldl_clearTold {s : State} (hs : s.link.devices.unknown) (fs : List Feeder) :
    fs.foldl (fun s f => if s.ownsDevice f then s.judgeNeeded f else s) s = fs.foldl State.clearTold s := by
  induction fs generalizing s with
  | nil => rfl
  | cons f rest ih =>
    rw [List.foldl_cons, List.foldl_cons, State.clearTold_eq hs]
    exact ih (State.clearTold_unknown hs f)

/-- A hunt that awaits devices by name is not moved. -/
theorem State.clearTold_self {s : State} {f : Feeder}
    (h : ∀ x, s.hunts.get f = some x → (x.phase = .isolatingDevices ∨ x.phase = .restoringDevices) → x.named ≠ []) :
    s.clearTold f = s := by
  unfold State.clearTold
  cases hx : s.hunts.get f with
  | none => rfl
  | some x =>
    dsimp only
    split
    · next hnamed =>
      split
      · next hp => exact absurd hnamed.1 (h x hx (.inl hp))
      · split
        · next hp => exact absurd hnamed.1 (h x hx (.inr hp))
        · rfl
    · rfl

/-- Settles O56. -/
theorem linkCommandsAnswer : Obligations.LinkCommandsAnswer := by
  intro s hport
  refine ⟨fun a x ha1 ha => ?_, fun a v hbad => serve_answers hport rfl (orderSwitch_range hbad), fun n hn => ?_, fun b h1 h2 h4 => ?_,
    fun c hc => ?_⟩
  · have hact := orderSwitch_of (s := s.restartSupervision) ha1 ha (desiredOfPlace_place x)
    have hread := readTwo_bytes (byte_small ha) (byte_small (desiredPlace_le x))
    change exec (.orderSwitch [byte a, byte (desiredPlace x)]) s = _
    cases hd : s.link.devices.find a with
    | none =>
      have hmissing : s.restartSupervision.link.devices.find a = none := hd
      simp only [hmissing] at hact
      exact serve_answers hport hread hact
    | some d =>
      have hfound : s.restartSupervision.link.devices.find a = some d := hd
      simp only [hfound] at hact
      dsimp only
      split
      · next howner => exact serve_answers hport hread (hact.trans (if_pos howner))
      · next howner => exact serve_answers hport hread (hact.trans (if_neg howner))
  · have hact : setLinkLimit n s.restartSupervision = if n < inFlightCount s.link.devices then (s.restartSupervision, refuse .wrongState)
        else ({ s.restartSupervision with link := { s.link with limit := n } }, ok []) := if_pos (by simpa using hn)
    have hsmall : n ≤ 255 := by
      simp only [List.mem_cons, List.not_mem_nil, or_false] at hn
      omega
    change exec (.setLinkLimit [byte n]) s = .next (if n < inFlightCount s.link.devices then _ else _)
    split
    · next hlow => exact serve_answers hport (readByte_byte hsmall) (hact.trans (if_pos hlow))
    · next hroom => exact serve_answers hport (readByte_byte hsmall) (hact.trans (if_neg hroom))
  · refine serve_answers hport rfl (if_neg ?_)
    have ne {n : Nat} (hn : n ≤ 255) (hb : b ≠ byte n) : b.toNat ≠ n := fun h => hb (by rw [← h, byte_of_toNat])
    rintro (h | h | h)
    · exact ne (by decide) h1 h
    · exact ne (by decide) h2 h
    · exact ne (by decide) h4 h
  · have hunknown : c.link.devices.unknown := by
      intro p hp
      rw [hc] at hp
      obtain ⟨q, -, rfl⟩ := List.mem_map.mp hp
      rfl
    have hclear : s.restartSupervision.clearLink = Ix4.all.foldl State.clearTold c := by
      refine Eq.trans ?_ (State.foldl_clearTold hunknown _)
      rw [hc]
      rfl
    refine ⟨serve_answers hport rfl (congrArg (·, _) hclear), fun hnamed => serve_answers hport rfl (congrArg (·, _) (hclear.trans ?_))⟩
    have hself (f : Feeder) : c.clearTold f = c := State.clearTold_self fun x hx => hnamed f x (by rw [← hx, hc]; rfl)
    simp only [Ix4.all, List.foldl_cons, List.foldl_nil, hself]

end Sys2Proof.Machine

/-! The commands of the section map (O52). -/

namespace Sys2Proof.Machine

/-! ## Tables -/

theorem Table.find_put_self {α : Type} (n : Nat) (a : α) (t : Table α) : (t.put n a).find n = some a := by
  induction t with
  | nil => simp [Table.put, Table.find]
  | cons p rest ih =>
    obtain ⟨k, b⟩ := p
    simp only [Table.put]
    split
    · simp [Table.find]
    · split
      · simp [Table.find]
      · next hne =>
        rw [Table.find, if_neg (fun h => hne h.symm), ih]

theorem Table.find_put_other {α : Type} {m n : Nat} (a : α) (t : Table α) (h : m ≠ n) : (t.put n a).find m = t.find m := by
  induction t with
  | nil => simp [Table.put, Table.find, h.symm]
  | cons p rest ih =>
    obtain ⟨k, b⟩ := p
    simp only [Table.put]
    split
    · rw [Table.find, if_neg h.symm]
    · split
      · next he =>
        rw [Table.find, Table.find, if_neg h.symm, if_neg (fun hk => h (hk.symm.trans he.symm))]
      · rw [Table.find, Table.find, ih]

/-! ## Payloads -/

theorem read4_be4 {n : Nat} (h : n < 4294967296) (rest : List Byte) : read4 (be4 n ++ rest) = some (n, rest) := by
  simp only [be4, List.cons_append, List.nil_append, read4, byte, BitVec.toNat_ofNat, Option.some.injEq, Prod.mk.injEq, and_true]
  omega

/-- The payload of WRITE_SECTION, read back. -/
theorem readSectionFields_layout {f : Feeder} {n : Nat} {x : Section} (hn : n ≤ 16) (hbase : x.base ≤ 120000) (hlimit : x.limit ≤ 120000)
    (hparent : x.parent ≤ 16) (hhead : ∀ a, x.head = some a → a ≤ 30) :
    readSectionFields ([byte f.num, byte n] ++ be4 x.base ++ be4 x.limit ++ [byte x.parent] ++ opt be1 x.head
      ++ [if x.enabled then 0#8 else 1#8]) = some ⟨f.num, n, x.base, x.limit, x.parent, x.head, if x.enabled then 0 else 1⟩ := by
  have hopt (rest : List Byte) : readOpt read1 (opt be1 x.head ++ rest) = some (x.head, rest) :=
    readOpt_opt fun a ha => read1_byte (byte_small (hhead a ha)) rest
  have henabled : read1 [if x.enabled then 0#8 else 1#8] = some (if x.enabled then 0 else 1, []) := by cases x.enabled <;> rfl
  simp only [readSectionFields, List.append_assoc, List.cons_append, List.nil_append, read1_byte f.num_small, read1_byte (byte_small hn),
    read4_be4 (n := x.base) (by omega), read4_be4 (n := x.limit) (by omega), read1_byte (byte_small hparent), hopt, henabled, whole,
    Option.bind_eq_bind, Option.bind_some, Option.pure_def]

/-! ## WRITE_SECTION's checks -/

theorem onOff_isNone {n : Nat} : (onOff n).isNone = true ↔ 1 < n := by
  match n with
  | 0 | 1 => decide
  | m + 2 => exact iff_of_true rfl (by omega)

/-- The byte of the first field out of range (07 R129, log 18). -/
theorem SectionFields.outOfRange_place (x : SectionFields) [Decidable (∃ a, x.head = some a ∧ (a = 0 ∨ 30 < a))] :
    (if x.feeder = 0 ∨ 4 < x.feeder then some 0#8 else if x.number = 0 ∨ 16 < x.number then some 1#8
      else if 120000 < x.base then some 2#8 else if 120000 < x.limit then some 3#8 else if 16 < x.parent then some 4#8
      else if (∃ a, x.head = some a ∧ (a = 0 ∨ 30 < a)) then some 5#8 else if 1 < x.enabled then some 6#8 else none)
    = x.outOfRange.map (fun w => byte w.place) := by
  have hfeeder : (x.feeder = 0 ∨ 4 < x.feeder) ↔ (Ix4.ofNum x.feeder).isNone = true := by
    rw [Option.isNone_iff_eq_none, Ix4.ofNum_eq_none]
    omega
  have hhead : (∃ a, x.head = some a ∧ (a = 0 ∨ 30 < a)) ↔
      (x.head.map (fun h => decide (1 ≤ h ∧ h ≤ 30))).getD true = false := by
    cases x.head with
    | none => simp
    | some a =>
      simp only [Option.some.injEq, exists_eq_left', Option.map_some, Option.getD_some, decide_eq_false_iff_not]
      omega
  unfold SectionFields.outOfRange
  simp only [apply_ite (Option.map _)]
  exact ite_of_iff hfeeder rfl (ite_of_iff (by omega) rfl (ite_of_iff Iff.rfl rfl (ite_of_iff Iff.rfl rfl (ite_of_iff Iff.rfl rfl
    (ite_of_iff hhead rfl (ite_of_iff onOff_isNone.symm rfl rfl))))))

theorem SectionFields.outOfRange_none {x : SectionFields} {f : Feeder} (hfeeder : x.feeder = f.num) (hnumber : 1 ≤ x.number ∧ x.number ≤ 16)
    (hbase : x.base ≤ 120000) (hlimit : x.limit ≤ 120000) (hparent : x.parent ≤ 16) (hhead : ∀ a, x.head = some a → 1 ≤ a ∧ a ≤ 30)
    (henabled : x.enabled ≤ 1) : x.outOfRange = none := by
  have h := x.outOfRange_place
  have h1 := f.one_le_num
  have h4 := f.num_le
  rw [if_neg (by omega), if_neg (by omega), if_neg (by omega), if_neg (by omega), if_neg (by omega), if_neg ?_, if_neg (by omega)] at h
  · exact Option.map_eq_none_iff.mp h.symm
  · rintro ⟨a, ha, hbad⟩
    have := hhead a ha
    omega

theorem State.tagNames_false {s : State} {f : Feeder} {n : Nat} : s.tagNames f n = false ↔ ∀ t ∈ s.tags, t.feeder = f → n ∉ t.scope := by
  simp [State.tagNames]

theorem State.tagNames_iff {s : State} {f : Feeder} {n : Nat} : s.tagNames f n = true ↔ ∃ t ∈ s.tags, t.feeder = f ∧ n ∈ t.scope := by
  simp [State.tagNames]

theorem State.deviceOn_iff {s : State} {f : Feeder} {a : Nat} :
    s.deviceOn f a = true ↔ ∃ d, s.link.devices.find a = some d ∧ d.feeder = f := by
  unfold State.deviceOn
  cases s.link.devices.find a <;> simp

theorem State.headsOther_iff {s : State} {f : Feeder} {n a : Nat} :
    s.headsOther f n a = true ↔ ∃ g, ∃ q ∈ s.sections.get g, q.2.head = some a ∧ ¬ (g = f ∧ q.1 = n) := by
  simp only [State.headsOther, List.any_eq_true, Ix4.mem_all, true_and, Bool.and_eq_true, decide_eq_true_eq, Bool.not_eq_true',
    decide_eq_false_iff_not]

/-- The section that WRITE_SECTION writes may be written (07 R130). -/
def State.sectionFree (s : State) (f : Feeder) (n : Nat) : Prop :=
  (s.sections.get f).find n = none ∨ ∀ t ∈ s.tags, t.feeder = f → n ∉ t.scope

/-- A parent is another held section that does not descend from the section (07 R128). -/
def State.parented (s : State) (f : Feeder) (n parent : Nat) : Prop :=
  parent = 0 ∨ (parent ≠ n ∧ (s.sections.get f).find parent ≠ none ∧ n ∉ ancestors (s.sections.get f) parent)

/-- A head device is a record of the feeder that heads no other section (07 R129). -/
def State.headFits (s : State) (f : Feeder) (n : Nat) (head : Option Nat) : Prop :=
  ∀ a, head = some a → (∃ d, s.link.devices.find a = some d ∧ d.feeder = f)
    ∧ ∀ g, ∀ q ∈ s.sections.get g, q.2.head = some a → g = f ∧ q.1 = n

section
variable {s : State} {f : Feeder} {x : SectionFields}

theorem State.sectionCheck_limit (h : x.limit < x.base) : s.sectionCheck f x = some (.badField, .limit) := if_pos h

theorem State.sectionCheck_hunt (h1 : x.base ≤ x.limit) (h : s.huntRuns f = true) : s.sectionCheck f x = some (.inUse, .feeder) :=
  (if_neg (Nat.not_lt.mpr h1)).trans (if_pos h)

/-- With no hunt on the feeder, the tags are asked (07 R129 check 4). -/
theorem State.sectionCheck_slot (h1 : x.base ≤ x.limit) (h2 : s.huntRuns f = false) (h : ¬ s.sectionFree f x.number) :
    s.sectionCheck f x = some (.inUse, .slot) := by
  refine (if_neg (Nat.not_lt.mpr h1)).trans ((if_neg (by rw [h2]; nofun)).trans (if_pos ?_))
  rw [State.sectionFree, ← State.tagNames_false, not_or, Bool.not_eq_false] at h
  exact ⟨Option.isSome_iff_ne_none.mpr h.1, h.2⟩

/-- The rest of the checks, of parent and head (07 R129 checks 5 to 8). -/
theorem State.sectionCheck_free (h1 : x.base ≤ x.limit) (h2 : s.huntRuns f = false) (h3 : s.sectionFree f x.number) :
    s.sectionCheck f x =
      if x.parent ≠ 0 ∧ (((s.sections.get f).find x.parent).isNone ∨ x.parent = x.number) then some (.badField, .parent)
      else if x.parent ≠ 0 ∧ (x.parent :: ancestors (s.sections.get f) x.parent).contains x.number then some (.badField, .parent)
      else if (x.head.map (s.deviceOn f)).getD true = false then some (.badField, .head)
      else if (x.head.map (s.headsOther f x.number)).getD false then some (.badField, .head)
      else none := by
  refine (if_neg (Nat.not_lt.mpr h1)).trans ((if_neg (by rw [h2]; nofun)).trans (if_neg ?_))
  rintro ⟨hheld, hnamed⟩
  rcases h3 with hnew | hfree
  · simp [hnew] at hheld
  · simp [State.tagNames_false.mpr hfree] at hnamed

theorem State.sectionCheck_parent (h1 : x.base ≤ x.limit) (h2 : s.huntRuns f = false) (h3 : s.sectionFree f x.number)
    (h : ¬ s.parented f x.number x.parent) : s.sectionCheck f x = some (.badField, .parent) := by
  obtain ⟨hroot, h⟩ := not_or.mp h
  rw [State.sectionCheck_free h1 h2 h3]
  split
  · rfl
  · next hother =>
    refine if_pos ⟨hroot, ?_⟩
    obtain ⟨hheld, hne⟩ := not_or.mp (fun hor => hother ⟨hroot, hor⟩)
    refine Classical.byContradiction fun hapart => ?_
    refine h ⟨hne, by simpa using hheld, fun hmem => hapart ?_⟩
    simp [hmem]

/-- With a parent that fits, the head is judged. -/
theorem State.sectionCheck_parented (h1 : x.base ≤ x.limit) (h2 : s.huntRuns f = false) (h3 : s.sectionFree f x.number)
    (h4 : s.parented f x.number x.parent) : s.sectionCheck f x =
      if (x.head.map (s.deviceOn f)).getD true = false then some (.badField, .head)
      else if (x.head.map (s.headsOther f x.number)).getD false then some (.badField, .head)
      else none := by
  rw [State.sectionCheck_free h1 h2 h3]
  refine (if_neg ?_).trans (if_neg ?_)
  · rintro ⟨hroot, hmissing⟩
    obtain ⟨hne, hheld, -⟩ := h4.resolve_left hroot
    exact hmissing.elim (fun hnone => hheld (by simpa using hnone)) hne
  · rintro ⟨hroot, hmem⟩
    obtain ⟨hne, -, hapart⟩ := h4.resolve_left hroot
    rcases List.mem_cons.mp (List.contains_iff_mem.mp hmem) with h | h
    · exact hne h.symm
    · exact hapart h

theorem State.sectionCheck_head (h1 : x.base ≤ x.limit) (h2 : s.huntRuns f = false) (h3 : s.sectionFree f x.number)
    (h4 : s.parented f x.number x.parent) {a : Nat} (ha : x.head = some a)
    (h : (∀ d, s.link.devices.find a = some d → d.feeder ≠ f) ∨ ∃ g, ∃ q ∈ s.sections.get g, q.2.head = some a ∧ ¬ (g = f ∧ q.1 = x.number)) :
    s.sectionCheck f x = some (.badField, .head) := by
  rw [State.sectionCheck_parented h1 h2 h3 h4, ha]
  rcases h with hoff | hother
  · refine if_pos (Bool.eq_false_iff.mpr fun hon => ?_)
    obtain ⟨d, hd, hf⟩ := State.deviceOn_iff.mp hon
    exact hoff d hd hf
  · split
    · rfl
    · exact if_pos (State.headsOther_iff.mpr hother)

theorem State.sectionCheck_fits (h1 : x.base ≤ x.limit) (h2 : s.huntRuns f = false) (h3 : s.sectionFree f x.number)
    (h4 : s.parented f x.number x.parent) (h5 : s.headFits f x.number x.head) : s.sectionCheck f x = none := by
  rw [State.sectionCheck_parented h1 h2 h3 h4]
  cases hhead : x.head with
  | none => rfl
  | some a =>
    obtain ⟨hon, hsole⟩ := h5 a hhead
    refine (if_neg ?_).trans (if_neg ?_)
    · exact fun hoff => Bool.false_ne_true (hoff.symm.trans (State.deviceOn_iff.mpr hon))
    · intro hother
      obtain ⟨g, q, hq, hqa, hne⟩ := State.headsOther_iff.mp hother
      exact hne (hsole g q hq hqa)

end

theorem writeSection_misfit {x : SectionFields} {s : State} {w : SectionField} (h : x.outOfRange = some w) :
    writeSection x s = (s, refuseField (.badField, w)) := by
  unfold writeSection
  rw [h]

theorem writeSection_refused {x : SectionFields} {s : State} {f : Feeder} {w : SectionFault} (h : x.outOfRange = none)
    (hf : x.feeder = f.num) (hc : s.sectionCheck f x = some w) : writeSection x s = (s, refuseField w) := by
  unfold writeSection
  simp only [h, hf, onFeeder_num, hc]

theorem writeSection_written {x : SectionFields} {s : State} {f : Feeder} (h : x.outOfRange = none) (hf : x.feeder = f.num)
    (hc : s.sectionCheck f x = none) : writeSection x s = (s.putSections f ((s.sections.get f).put x.number x.record), ok []) := by
  unfold writeSection
  simp only [h, hf, onFeeder_num, hc]

/-! ## DELETE_SECTION -/

theorem childrenOf_ne_nil {t : Table Section} {n : Nat} : childrenOf t n ≠ [] ↔ ∃ p ∈ t, p.2.parent = n := by
  simp [childrenOf, Table.pick]

theorem State.inUse_isSome {s : State} {f : Feeder} {n : Nat} : (s.inUse f n).isSome = true ↔
    s.huntRuns f = true ∨ (∃ t ∈ s.tags, t.feeder = f ∧ n ∈ t.scope) ∨ ∃ p ∈ s.sections.get f, p.2.parent = n := by
  rw [← State.tagNames_iff, ← childrenOf_ne_nil]
  unfold State.inUse
  split
  · next h => simp [h]
  · next h =>
    split
    · next ht => simp [ht]
    · next ht =>
      split
      · next hc => simp [hc]
      · next hc => simpa [h, ht] using hc

/-- DELETE_SECTION of a section number in range. -/
theorem deleteSection_of (f : Feeder) {n : Nat} (s : State) (hn : 1 ≤ n ∧ n ≤ 16) : deleteSection (f.num, n) s =
    if ((s.sections.get f).find n).isNone = true then (s, refuse .notFound)
    else if (s.inUse f n).isSome = true then (s, refuse .inUse)
    else (s.putSections f ((s.sections.get f).erase n), ok []) := onSection_num f hn

/-- Settles O52. -/
theorem sectionWritesAndDeletes : Obligations.SectionWritesAndDeletes := by
  intro s f n hport hn1 hn
  have hread : readTwo [byte f.num, byte n] = some (f.num, n) := readTwo_bytes f.num_small (byte_small hn)
  have hdelete := deleteSection_of f s.restartSupervision ⟨hn1, hn⟩
  refine ⟨?_, ?_, ?_, ?_, ?_, ?_, ?_⟩
  · intro x hbase hlimit hhunt hfree hparent hhead
    have hparent16 : x.parent ≤ 16 := hparent.elim (fun h => Nat.le_trans (Nat.le_of_eq h) (by decide)) (·.1)
    have hhead30 (a : Nat) (ha : x.head = some a) : 1 ≤ a ∧ a ≤ 30 := ⟨(hhead a ha).1, (hhead a ha).2.1⟩
    have hin : SectionFields.outOfRange ⟨f.num, n, x.base, x.limit, x.parent, x.head, if x.enabled then 0 else 1⟩ = none :=
      SectionFields.outOfRange_none (f := f) rfl ⟨hn1, hn⟩ (Nat.le_trans hbase hlimit) hlimit hparent16 hhead30 (by dsimp only; split <;> decide)
    have hrecord : SectionFields.record ⟨f.num, n, x.base, x.limit, x.parent, x.head, if x.enabled then 0 else 1⟩ = x := by
      cases x with
      | mk base limit parent head enabled => cases enabled <;> rfl
    refine ⟨?_, Table.find_put_self n x _, fun m hm => Table.find_put_other x _ hm⟩
    refine serve_answers hport (readSectionFields_layout hn (Nat.le_trans hbase hlimit) hlimit hparent16 fun a ha => (hhead30 a ha).2)
      ((writeSection_written (s := s.restartSupervision) hin rfl (State.sectionCheck_fits (s := s.restartSupervision) hbase hhunt hfree ?_ fun a ha => (hhead a ha).2.2)).trans ?_)
    · exact hparent.imp id fun ⟨_, hne, hheld, hapart⟩ => ⟨hne, hheld, hapart⟩
    · rw [hrecord]
      rfl
  · intro p x hreads w hw
    rw [SectionFields.outOfRange_place] at hw
    obtain ⟨v, hv, rfl⟩ := Option.map_eq_some_iff.mp hw
    exact serve_answers hport hreads (writeSection_misfit hv)
  · rintro p x free parented hreads hfeeder rfl hbase hlimit hparent hhead henabled hfree hparented
    have hin := SectionFields.outOfRange_none hfeeder ⟨hn1, hn⟩ hbase hlimit hparent hhead henabled
    have refused {w : SectionFault} (hc : s.sectionCheck f x = some w) :
        exec (.writeSection p) s = .next (s.restartSupervision.answer 41#8 (refuseField w)) :=
      serve_answers hport hreads (writeSection_refused hin hfeeder hc)
    rw [hfree, hparented]
    exact ⟨fun h => refused (State.sectionCheck_limit h), fun h1 h => refused (State.sectionCheck_hunt h1 h),
      fun h1 h2 h => refused (State.sectionCheck_slot h1 h2 h), fun h1 h2 h3 h => refused (State.sectionCheck_parent h1 h2 h3 h),
      fun h1 h2 h3 h4 ⟨a, ha, h⟩ => refused (State.sectionCheck_head h1 h2 h3 h4 ha h)⟩
  · intro b c hbad
    refine serve_answers hport rfl ?_
    by_cases hb : b.toNat < 1 ∨ 4 < b.toNat
    · exact onFeeder_none (Ix4.ofNum_eq_none.mpr hb)
    · obtain ⟨g, hg, -⟩ := Ix4.ofNum_some (n := b.toNat) (by omega) (by omega)
      have hc : c.toNat = 0 ∨ 16 < c.toNat := by
        rcases hbad with rfl | h | rfl | h
        · exact absurd (.inl (by decide)) hb
        · exact absurd (.inr h) hb
        · exact .inl rfl
        · exact .inr h
      rw [← hg]
      exact onSection_range g (by omega)
  · intro hnew
    exact serve_answers hport hread (hdelete.trans (if_pos (by simpa using hnew)))
  · intro hheld huse
    exact serve_answers hport hread (hdelete.trans ((if_neg (by simpa using hheld)).trans (if_pos (State.inUse_isSome.mpr huse))))
  · intro hheld hhunt htags hchildren
    refine serve_answers hport hread (hdelete.trans ((if_neg (by simpa using hheld)).trans ((if_neg fun huse => ?_).trans rfl)))
    rcases State.inUse_isSome.mp huse with h | ⟨t, ht, hf, hm⟩ | ⟨p, hp, h⟩
    · exact Bool.false_ne_true (hhunt.symm.trans h)
    · exact htags t ht hf hm
    · exact hchildren p hp h

end Sys2Proof.Machine

/-! The fields of the working copies (O34). -/

namespace Sys2Proof.Machine

/-! ## Lists of fields -/

/-- A field stands before another in the order of their bytes and indexes. -/
@[reducible] def Field.before {α : Type} (x y : Field α) : Prop := x.row < y.row ∨ (x.row = y.row ∧ x.index < y.index)

/-- The fields of a list are read back after a write, and no other field is changed, in the copies of a kind. -/
def fieldsApart {α : Type} (fs : List (Field α)) (ok : α → Prop) : Prop :=
  ∀ x ∈ fs, ∀ n a, ok a → (x.accepts n = true → x.get (x.set n a) = some n)
    ∧ ∀ y ∈ fs, ¬ (y.row = x.row ∧ y.index = x.index) → y.get (x.set n a) = y.get a

theorem findField_some {α : Type} {fs : List (Field α)} {row index : Nat} {x : Field α} (h : findField fs row index = some x) :
    x ∈ fs ∧ x.row = row ∧ x.index = index :=
  ⟨List.mem_of_find?_eq_some h, of_decide_eq_true (List.find?_some (p := fun x : Field α => decide (x.row = row ∧ x.index = index)) h)⟩

section
variable {α : Type} {fs : List (Field α)} (hs : fs.Pairwise Field.before)
include hs

/-- Of an ordered list, a byte and an index name one field at most. -/
theorem field_unique {x y : Field α} (hx : x ∈ fs) (hy : y ∈ fs) (hname : x.row = y.row ∧ x.index = y.index) : x = y := by
  have hnodup : (fs.map (fun x => (x.row, x.index))).Nodup := by
    refine List.pairwise_map.mpr (hs.imp fun {a b} hab he => ?_)
    obtain ⟨hrow, hindex⟩ := Prod.mk.inj he
    unfold Field.before at hab
    omega
  exact eq_of_nodup_map hnodup hx hy (by rw [hname.1, hname.2])

theorem findField_eq {x : Field α} (hx : x ∈ fs) {row index : Nat} (hrow : x.row = row) (hindex : x.index = index) :
    findField fs row index = some x := by
  cases hf : findField fs row index with
  | none => exact absurd (decide_eq_true ⟨hrow, hindex⟩) (List.find?_eq_none.mp hf x hx)
  | some y =>
    obtain ⟨hy, hyrow, hyindex⟩ := findField_some hf
    exact congrArg some (field_unique hs hy hx ⟨hyrow.trans hrow.symm, hyindex.trans hindex.symm⟩)

/-- A write is taken where the field named takes the value. -/
theorem writeField_some {w : StagedFields} {a new : α} : writeField fs w a = some new ↔
    ∃ x ∈ fs, x.row = w.field ∧ x.index = w.index ∧ x.accepts w.value = true ∧ new = x.set w.value a := by
  constructor
  · intro h
    unfold writeField at h
    split at h
    · next x hx =>
      split at h
      · next hv =>
        cases h
        obtain ⟨hmem, hrow, hindex⟩ := findField_some hx
        exact ⟨x, hmem, hrow, hindex, hv, rfl⟩
      · exact absurd h nofun
    · exact absurd h nofun
  · rintro ⟨x, hx, hrow, hindex, hv, rfl⟩
    unfold writeField
    simp only [findField_eq hs hx hrow hindex, hv, if_true]

theorem writeField_isSome (w : StagedFields) (a : α) : (∃ new, writeField fs w a = some new) ↔
    ∃ x ∈ fs, x.row = w.field ∧ x.index = w.index ∧ x.accepts w.value = true := by
  simp only [writeField_some hs]
  constructor
  · rintro ⟨new, x, hx, hrow, hindex, hv, -⟩
    exact ⟨x, hx, hrow, hindex, hv⟩
  · rintro ⟨x, hx, hrow, hindex, hv⟩
    exact ⟨_, x, hx, hrow, hindex, hv, rfl⟩

theorem writesApart_of {ok : α → Prop} (hf : fieldsApart fs ok) (w : StagedFields) {a : α} (ha : ok a) : writesApart fs w a := by
  refine ⟨?_, fun new hnew y hy => ?_⟩
  · rw [Option.eq_none_iff_forall_ne_some, ← not_exists, writeField_isSome hs w a]
    simp only [not_exists, not_and, Bool.not_eq_true]
  · obtain ⟨x, hx, hrow, hindex, hv, rfl⟩ := (writeField_some hs).mp hnew
    obtain ⟨hself, hother⟩ := hf x hx w.value a ha
    rw [← hrow, ← hindex]
    split
    · next hname => rw [field_unique hs hy hx hname, hself hv]
    · next hname => exact hother y hy hname

end

/-! ## Ranges -/

theorem within_iff {low high n : Nat} : within low high n = true ↔ low ≤ n ∧ n ≤ high := decide_eq_true_iff

theorem stepped_iff {low high n : Nat} : stepped low high n = true ↔ (low ≤ n ∧ n ≤ high) ∧ n % 10 = 0 := by
  simp [stepped, within]

/-! ## The fields of a group -/

theorem groupFields_ordered : groupFields.Pairwise Field.before := by decide

theorem constantFields_ordered : constantFields.Pairwise Field.before := by decide

theorem curveFields_ordered : (curveFieldsTo 16).Pairwise Field.before := by decide

/-- A value of a group that a field writes and reads: how, and the values that are read back as they are written. -/
structure Slot (α : Type) where
  row : Nat
  index : Nat
  fits : Nat → Prop
  get : α → Nat
  set : Nat → α → α

/-- What an element's settings hold, by the byte of the field. -/
def settingSlots : List (Slot ElementSettings) :=
  [⟨0, 0, (· ≤ 1), fun x => placeOf x.enabled, fun n x => { x with enabled := decide (n = 0) }⟩,
    ⟨1, 0, fun _ => True, (·.pickup), fun n x => { x with pickup := n }⟩,
    ⟨2, 0, (· ≤ 31), fun x => x.shots.toNat, fun n x => { x with shots := BitVec.ofNat 5 n }⟩,
    ⟨3, 0, (· ≤ 1), fun x => placeOf x.workFast, fun n x => { x with workFast := decide (n = 0) }⟩,
    ⟨4, 0, (· ≤ 3), fun x => x.curve.place, fun n x => { x with curve := (Ix4.ofPlace n).getD x.curve }⟩,
    ⟨5, 0, fun _ => True, (·.tm), fun n x => { x with tm := n }⟩,
    ⟨6, 0, fun _ => True, (·.resetTime), fun n x => { x with resetTime := n }⟩,
    ⟨7, 0, fun _ => True, (·.delay), fun n x => { x with delay := n }⟩,
    ⟨8, 0, fun _ => True, (·.vsup), fun n x => { x with vsup := n }⟩]

/-- What a group holds once, or once for each shot. -/
def groupSlots : List (Slot Group) :=
  [⟨9, 0, fun _ => True, (·.shotCount), fun n g => { g with shotCount := n }⟩,
    ⟨11, 0, fun _ => True, (·.reclaimTime), fun n g => { g with reclaimTime := n }⟩,
    ⟨12, 0, fun _ => True, (·.recloseCeiling), fun n g => { g with recloseCeiling := n }⟩,
    ⟨13, 0, (· ≤ 1), fun g => placeOf g.huntEnabled, fun n g => { g with huntEnabled := decide (n = 0) }⟩,
    ⟨14, 0, fun _ => True, (·.huntCeiling), fun n g => { g with huntCeiling := n }⟩,
    ⟨15, 0, fun _ => True, (·.testBudget), fun n g => { g with testBudget := n }⟩,
    ⟨16, 0, fun _ => True, (·.testHoldTime), fun n g => { g with testHoldTime := n }⟩]
  ++ Ix4.all.map (fun i => ⟨10, i.num, fun _ => True, fun g => g.deadTimes.get i, fun n g => { g with deadTimes := g.deadTimes.set i n }⟩)

theorem placeOf_decide {n : Nat} (h : n ≤ 1) : placeOf (decide (n = 0)) = n := by
  match n, h with
  | 0, _ | 1, _ => rfl

theorem ofPlace_getD {n : Nat} (h : n ≤ 3) (i : Ix4) : ((Ix4.ofPlace n).getD i).place = n := by
  match n, h with
  | 0, _ | 1, _ | 2, _ | 3, _ => rfl

theorem settingSlots_back : ∀ l ∈ settingSlots, ∀ n x, l.fits n → l.get (l.set n x) = n := by
  simp +contextual [settingSlots, placeOf_decide, ofPlace_getD, Nat.lt_succ_iff]

theorem settingSlots_apart : ∀ l ∈ settingSlots, ∀ m ∈ settingSlots, m.row ≠ l.row → ∀ n x, m.get (l.set n x) = m.get x := by
  simp [settingSlots]

theorem groupSlots_back : ∀ l ∈ groupSlots, ∀ n x, l.fits n → l.get (l.set n x) = n := by
  simp +contextual [groupSlots, Ix4.all, placeOf_decide]

theorem groupSlots_apart : ∀ l ∈ groupSlots, ∀ m ∈ groupSlots, ¬ (m.row = l.row ∧ m.index = l.index) →
    ∀ n x, m.get (l.set n x) = m.get x := by
  simp [groupSlots, Ix4.all, Ix4.num, Four.get_set]

/-! ### Each field by its slot -/

theorem Five.get_set_self {α : Type} (x : Five α) (e : Element) (a : α) : (x.set e a).get e = a := by cases e <;> rfl

theorem Five.get_set_other {α : Type} (x : Five α) {e d : Element} (a : α) (h : d ≠ e) : (x.set e a).get d = x.get d := by
  cases e <;> cases d <;> first | exact absurd rfl h | rfl

/-- A field of a group that holds a slot of an element's settings; Vsup has the index 0 (log 13). -/
def Field.inSetting (x : Field Group) (l : Slot ElementSettings) (e : Element) : Prop :=
  (x.row = l.row ∧ x.index = if l.row = 8 then 0 else e.place) ∧ (x.get = fun g => some (l.get (g.elements.get e)))
  ∧ (x.set = fun n g => { g with elements := g.elements.set e (l.set n (g.elements.get e)) }) ∧ ∀ n, x.accepts n = true → l.fits n

/-- A field of a group that holds a slot of the group itself. -/
def Field.inGroup (x : Field Group) (l : Slot Group) : Prop :=
  (x.row = l.row ∧ x.index = l.index) ∧ (x.get = fun g => some (l.get g)) ∧ x.set = l.set ∧ ∀ n, x.accepts n = true → l.fits n

theorem groupFields_slot {x : Field Group} (hx : x ∈ groupFields) :
    (∃ l ∈ settingSlots, ∃ e, x.inSetting l e) ∨ ∃ l ∈ groupSlots, x.inGroup l := by
  have setting {rows : List Element} {n : Nat} {accepts : Element → Nat → Bool} {width : Element → Nat} {l : Slot ElementSettings}
      (hl : l ∈ settingSlots) (hrow : n = l.row) (h8 : l.row ≠ 8) (hfits : ∀ e n, accepts e n = true → l.fits n)
      (hx : x ∈ rows.map (fun e => elementField n e (accepts e) l.get l.set (width e))) :
      (∃ l ∈ settingSlots, ∃ e, x.inSetting l e) ∨ ∃ l ∈ groupSlots, x.inGroup l := by
    obtain ⟨e, -, rfl⟩ := List.mem_map.mp hx
    exact .inl ⟨l, hl, e, ⟨hrow, (if_neg h8).symm⟩, rfl, rfl, hfits e⟩
  have single {y : Field Group} (hy : x ∈ [y]) {l : Slot Group} (hl : l ∈ groupSlots) (hin : y.inGroup l) :
      (∃ l ∈ settingSlots, ∃ e, x.inSetting l e) ∨ ∃ l ∈ groupSlots, x.inGroup l :=
    .inr ⟨l, hl, List.mem_singleton.mp hy ▸ hin⟩
  have slot (k : Nat) (hk : k < groupSlots.length := by decide) : groupSlots[k] ∈ groupSlots := List.getElem_mem _
  have most {low high n : Nat} (h : within low high n = true) : n ≤ high := (within_iff.mp h).2
  simp only [groupFields, List.mem_append] at hx
  rcases hx with ((((((((((h | h) | h) | h) | h) | h) | h) | h) | h) | h) | h) | h
  · exact setting (l := settingSlots[0]) (List.getElem_mem _) rfl (by decide) (fun _ _ h => most h) h
  · exact setting (l := settingSlots[1]) (List.getElem_mem _) rfl (by decide) (fun _ _ _ => trivial) h
  · exact setting (l := settingSlots[2]) (List.getElem_mem _) rfl (by decide) (fun _ _ h => most h) h
  · exact setting (l := settingSlots[3]) (List.getElem_mem _) rfl (by decide) (fun _ _ h => most h) h
  · exact setting (l := settingSlots[4]) (List.getElem_mem _) rfl (by decide) (fun _ _ h => most h) h
  · exact setting (l := settingSlots[5]) (List.getElem_mem _) rfl (by decide) (fun _ _ _ => trivial) h
  · exact setting (l := settingSlots[6]) (List.getElem_mem _) rfl (by decide) (fun _ _ _ => trivial) h
  · exact setting (l := settingSlots[7]) (List.getElem_mem _) rfl (by decide) (fun _ _ _ => trivial) h
  · rw [List.mem_singleton.mp h]
    exact .inl ⟨settingSlots[8], List.getElem_mem _, .s1, ⟨rfl, rfl⟩, rfl, rfl, fun _ _ => trivial⟩
  · exact single h (slot 0) ⟨⟨rfl, rfl⟩, rfl, rfl, fun _ _ => trivial⟩
  · obtain ⟨i, hi, rfl⟩ := List.mem_map.mp h
    exact .inr ⟨_, List.mem_append_right _ (List.mem_map_of_mem hi), ⟨rfl, rfl⟩, rfl, rfl, fun _ _ => trivial⟩
  · simp only [List.mem_cons, List.not_mem_nil, or_false] at h
    rcases h with rfl | rfl | rfl | rfl | rfl | rfl
    · exact .inr ⟨_, slot 1, ⟨rfl, rfl⟩, rfl, rfl, fun _ _ => trivial⟩
    · exact .inr ⟨_, slot 2, ⟨rfl, rfl⟩, rfl, rfl, fun _ _ => trivial⟩
    · exact .inr ⟨_, slot 3, ⟨rfl, rfl⟩, rfl, rfl, fun _ h => most h⟩
    · exact .inr ⟨_, slot 4, ⟨rfl, rfl⟩, rfl, rfl, fun _ _ => trivial⟩
    · exact .inr ⟨_, slot 5, ⟨rfl, rfl⟩, rfl, rfl, fun _ _ => trivial⟩
    · exact .inr ⟨_, slot 6, ⟨rfl, rfl⟩, rfl, rfl, fun _ _ => trivial⟩

theorem groupSlots_elements : ∀ l ∈ groupSlots, (∀ n g, (l.set n g).elements = g.elements) ∧ ∀ g y, l.get { g with elements := y } = l.get g := by
  simp [groupSlots, Ix4.all]

theorem groupFields_apart : fieldsApart groupFields fun _ => True := by
  intro x hx n g _
  rcases groupFields_slot hx with ⟨l, hl, e, ⟨hrow, hindex⟩, hget, hset, hfits⟩ | ⟨l, hl, ⟨hrow, hindex⟩, hget, hset, hfits⟩
  · rw [hget, hset]
    refine ⟨fun hv => ?_, fun y hy hother => ?_⟩
    · dsimp only
      rw [Five.get_set_self, settingSlots_back l hl n _ (hfits n hv)]
    · rcases groupFields_slot hy with ⟨m, hm, d, ⟨hrow', hindex'⟩, hget', -⟩ | ⟨m, hm, -, hget', -⟩
      · rw [hget']
        dsimp only
        by_cases hde : d = e
        · subst hde
          have hne : m.row ≠ l.row := fun h => hother ⟨by rw [hrow, hrow', h], by rw [hindex, hindex', h]⟩
          rw [Five.get_set_self, settingSlots_apart l hl m hm hne]
        · rw [Five.get_set_other _ _ hde]
      · rw [hget']
        exact congrArg some ((groupSlots_elements m hm).2 g _)
  · rw [hget, hset]
    refine ⟨fun hv => congrArg some (groupSlots_back l hl n g (hfits n hv)), fun y hy hother => ?_⟩
    rcases groupFields_slot hy with ⟨m, hm, d, -, hget', -⟩ | ⟨m, hm, ⟨hrow', hindex'⟩, hget', -⟩
    · rw [hget']
      dsimp only
      rw [(groupSlots_elements l hl).1]
    · rw [hget']
      refine congrArg some (groupSlots_apart l hl m hm (fun h => hother ?_) n g)
      rw [hrow, hrow', hindex, hindex']
      exact h

/-! ## The fields of a copy of constants and of a curve -/

/-- The fields of constants that are held once. -/
def scalarFields : List (Field ConstantsDraft) := constantFields.take 8

/-- The entry of the level map for a level. -/
def levelField (i : Nat) : Field ConstantsDraft :=
  { constantField 8 (within 1 4) (fun k => ((k.levelMap[i]?).join).map Ix4.num)
    (fun n k => { k with levelMap := k.levelMap.set i (Ix4.ofNum n) }) 1 with index := i }

theorem mem_constantFields {x : Field ConstantsDraft} : x ∈ constantFields ↔ x ∈ scalarFields ∨ ∃ i < 6, x = levelField i := by
  have hlist : constantFields = scalarFields ++ (List.range 6).map levelField := rfl
  rw [hlist, List.mem_append, List.mem_map]
  simp only [List.mem_range, eq_comm]

theorem scalarFields_back : ∀ x ∈ scalarFields, ∀ n k, x.accepts n = true → x.get (x.set n k) = some n := by
  have hdistrict {n : Nat} (h : n ≤ 1) : District.place (if n = 0 then .a else .b) = n := by
    match n, h with
    | 0, _ | 1, _ => rfl
  simp +contextual [scalarFields, constantFields, constantField, within_iff, hdistrict]

theorem scalarFields_apart : ∀ x ∈ scalarFields, ∀ y ∈ scalarFields, ¬ (y.row = x.row ∧ y.index = x.index) →
    ∀ n k, y.get (x.set n k) = y.get k := by
  simp [scalarFields, constantFields, constantField]

theorem scalarFields_levelMap : ∀ x ∈ scalarFields,
    (∀ n k, (x.set n k).levelMap = k.levelMap) ∧ ∀ k m, x.get { k with levelMap := m } = x.get k := by
  simp [scalarFields, constantFields, constantField]

theorem constantFields_apart : fieldsApart constantFields fun k => k.levelMap.length = 6 := by
  intro x hx n k hlen
  rcases mem_constantFields.mp hx with hx | ⟨i, hi, rfl⟩
  · refine ⟨scalarFields_back x hx n k, fun y hy hother => ?_⟩
    rcases mem_constantFields.mp hy with hy | ⟨j, hj, rfl⟩
    · exact scalarFields_apart x hx y hy hother n k
    · exact congrArg (fun m : List (Option GroupNo) => ((m[j]?).join).map Ix4.num) ((scalarFields_levelMap x hx).1 n k)
  · refine ⟨fun hv => ?_, fun y hy hother => ?_⟩
    · obtain ⟨h1, h4⟩ := within_iff.mp hv
      obtain ⟨g, hg, hof⟩ := Ix4.ofNum_some h1 h4
      simp [levelField, constantField, hlen, hi, hof, hg]
    · rcases mem_constantFields.mp hy with hy | ⟨j, hj, rfl⟩
      · exact (scalarFields_levelMap y hy).2 k _
      · have hne : i ≠ j := fun h => hother ⟨rfl, h.symm⟩
        simp [levelField, constantField, hne]

theorem mem_curveFieldsTo {n : Nat} {x : Field CurveDraft} :
    x ∈ curveFieldsTo n ↔ x = countField ∨ (∃ k < n, x = qField (k + 1)) ∨ ∃ k < n, x = tField (k + 1) := by
  simp only [curveFieldsTo, List.mem_cons, List.mem_append, List.mem_map, List.mem_range, eq_comm]

/-- A value written into a list is read back, and no other of its values is changed. -/
theorem get_set_some {l : List (Option Nat)} {k n : Nat} (h : k < l.length) : ((l.set k (some n))[k]?).join = some n := by
  simp [h]

theorem get_set_apart {l : List (Option Nat)} {j k : Nat} (n : Nat) (h : k ≠ j) : ((l.set k (some n))[j]?).join = (l[j]?).join := by
  simp [h]

theorem curveFields_apart : fieldsApart (curveFieldsTo 16) fun c => c.qs.length = 16 ∧ c.ts.length = 16 := by
  rintro x hx n c ⟨hqs, hts⟩
  rcases mem_curveFieldsTo.mp hx with rfl | ⟨k, hk, rfl⟩ | ⟨k, hk, rfl⟩
  · refine ⟨fun _ => rfl, fun y hy hother => ?_⟩
    rcases mem_curveFieldsTo.mp hy with rfl | ⟨j, hj, rfl⟩ | ⟨j, hj, rfl⟩
    · exact absurd ⟨rfl, rfl⟩ hother
    · rfl
    · rfl
  · refine ⟨fun _ => get_set_some (hqs ▸ hk), fun y hy hother => ?_⟩
    rcases mem_curveFieldsTo.mp hy with rfl | ⟨j, hj, rfl⟩ | ⟨j, hj, rfl⟩
    · rfl
    · exact get_set_apart n fun h : k = j => hother ⟨rfl, congrArg (· + 1) h.symm⟩
    · rfl
  · refine ⟨fun _ => get_set_some (hts ▸ hk), fun y hy hother => ?_⟩
    rcases mem_curveFieldsTo.mp hy with rfl | ⟨j, hj, rfl⟩ | ⟨j, hj, rfl⟩
    · rfl
    · rfl
    · exact get_set_apart n fun h : k = j => hother ⟨rfl, congrArg (· + 1) h.symm⟩

/-! ## What the fields take -/

/-- Some field of a list bears a name and takes a value. -/
def accepted {α : Type} (fs : List (Field α)) (row index n : Nat) : Prop :=
  ∃ x ∈ fs, x.row = row ∧ x.index = index ∧ x.accepts n = true

section
variable {α : Type} {row index n : Nat}

theorem accepted_append {fs gs : List (Field α)} : accepted (fs ++ gs) row index n ↔ accepted fs row index n ∨ accepted gs row index n := by
  simp only [accepted, List.mem_append, or_and_right, exists_or]

theorem accepted_cons {x : Field α} {fs : List (Field α)} :
    accepted (x :: fs) row index n ↔ (x.row = row ∧ x.index = index ∧ x.accepts n = true) ∨ accepted fs row index n := by
  simp only [accepted, List.mem_cons, or_and_right, exists_or, exists_eq_left]

theorem accepted_nil : accepted ([] : List (Field α)) row index n ↔ False := by simp [accepted]

theorem accepted_elements {es : List Element} {r : Nat} {accepts : Element → Nat → Bool} {get : ElementSettings → Nat}
    {set : Nat → ElementSettings → ElementSettings} {width : Element → Nat} :
    accepted (es.map (fun e => elementField r e (accepts e) get set (width e))) row index n ↔
      r = row ∧ ∃ e ∈ es, e.place = index ∧ accepts e n = true := by
  simp only [accepted, List.mem_map]
  constructor
  · rintro ⟨_, ⟨e, he, rfl⟩, hrow, h⟩
    exact ⟨hrow, e, he, h⟩
  · rintro ⟨hrow, e, he, h⟩
    exact ⟨_, ⟨e, he, rfl⟩, hrow, h⟩

theorem accepted_range {k r : Nat} {F : Nat → Field α} {name : Nat → Nat} {accepts : Nat → Bool} (hrow : ∀ i, (F i).row = r)
    (hindex : ∀ i, (F i).index = name i) (haccepts : ∀ i, (F i).accepts = accepts) :
    accepted ((List.range k).map F) row index n ↔ r = row ∧ (∃ i < k, name i = index) ∧ accepts n = true := by
  simp only [accepted, List.mem_map, List.mem_range]
  constructor
  · rintro ⟨_, ⟨i, hi, rfl⟩, hr, hx, h⟩
    exact ⟨(hrow i).symm.trans hr, ⟨i, hi, (hindex i).symm.trans hx⟩, haccepts i ▸ h⟩
  · rintro ⟨hr, ⟨i, hi, hx⟩, h⟩
    exact ⟨_, ⟨i, hi, rfl⟩, (hrow i).trans hr, (hindex i).trans hx, (haccepts i).symm ▸ h⟩

end

/-- The fields of the elements, block by block (02 R27). -/
theorem groupFields_accept (row index n : Nat) : accepted groupFields row index n ↔ groupRange row index n := by
  have choice {es : List Element} {r low high : Nat} {get : ElementSettings → Nat} {set : Nat → ElementSettings → ElementSettings}
      {width : Element → Nat} : accepted (es.map (fun e => elementField r e (within low high) get set (width e))) row index n ↔
        row = r ∧ (∃ e ∈ es, e.place = index) ∧ low ≤ n ∧ n ≤ high := by
    rw [accepted_elements (accepts := fun _ => within low high), within_iff, eq_comm]
    exact and_congr_right fun _ => ⟨fun ⟨e, he, hi, h⟩ => ⟨⟨e, he, hi⟩, h⟩, fun ⟨⟨e, he, hi⟩, h⟩ => ⟨e, he, hi, h⟩⟩
  have hall : (∃ e ∈ Element.all, e.place = index) ↔ index ≤ 4 := by
    simp [Element.all, Element.place]
    omega
  have hinverse : (∃ e ∈ [Element.p1, .e1], e.place = index) ↔ index = 0 ∨ index = 2 := by
    simp [Element.place]
    omega
  have hpickup : (1 = row ∧ ∃ e ∈ Element.all, e.place = index ∧ pickupRange e n = true) ↔
      row = 1 ∧ ((index ≤ 1 ∧ 10 ≤ n ∧ n ≤ 4000) ∨ ((index = 2 ∨ index = 3) ∧ 5 ≤ n ∧ n ≤ 5000) ∨ (index = 4 ∧ 5 ≤ n ∧ n ≤ 250)) := by
    simp [Element.all, Element.place, pickupRange, within_iff]
    omega
  have hdelay : (7 = row ∧ ∃ e ∈ [Element.p2, .e2, .s1], e.place = index ∧ stepped 0 60000 n = true) ↔
      row = 7 ∧ (index = 1 ∨ index = 3 ∨ index = 4) ∧ n ≤ 60000 ∧ n % 10 = 0 := by
    simp [Element.place, stepped_iff]
    omega
  have hdead : accepted (Ix4.all.map (fun i => { groupField 10 (stepped 300 180000) (fun g => g.deadTimes.get i)
      (fun n g => { g with deadTimes := g.deadTimes.set i n }) 4 with index := i.num })) row index n ↔
      row = 10 ∧ 1 ≤ index ∧ index ≤ 4 ∧ 300 ≤ n ∧ n ≤ 180000 ∧ n % 10 = 0 := by
    simp [Ix4.all, accepted_cons, accepted_nil, groupField, Ix4.num, stepped_iff]
    omega
  simp only [groupFields, accepted_append, choice, hall, hinverse, accepted_elements, hpickup, hdelay, hdead]
  simp only [accepted_cons, accepted_nil, elementField, groupField, within_iff]
  simp only [groupRange, @eq_comm Nat _ row, @eq_comm Nat _ index, Nat.zero_le, true_and, or_false, or_and_right]
  exact Iff.of_eq (by ac_rfl)

theorem constantFields_accept (row index n : Nat) : accepted constantFields row index n ↔ constantRange row index n := by
  rw [constantFields, accepted_append, accepted_range (r := 8) (name := id) (accepts := within 1 4) (fun _ => rfl) (fun _ => rfl) (fun _ => rfl)]
  simp only [accepted_cons, accepted_nil, constantField, within_iff, id_eq, exists_eq_right, or_false]
  simp only [constantRange, @eq_comm Nat _ row, @eq_comm Nat _ index, Nat.zero_le, true_and, Nat.lt_succ_iff, or_assoc, or_and_right]

theorem curveFields_accept (row index n : Nat) : accepted (curveFieldsTo 16) row index n ↔ curveRange row index n := by
  have hindex : (∃ i < 16, i + 1 = index) ↔ 1 ≤ index ∧ index ≤ 16 :=
    ⟨fun ⟨i, hi, h⟩ => by omega, fun h => ⟨index - 1, by omega, by omega⟩⟩
  rw [curveFieldsTo, accepted_cons, accepted_append,
    accepted_range (r := 1) (name := (· + 1)) (accepts := within 64 2560) (fun _ => rfl) (fun _ => rfl) (fun _ => rfl),
    accepted_range (r := 2) (name := (· + 1)) (accepts := within 10 600000) (fun _ => rfl) (fun _ => rfl) (fun _ => rfl), hindex]
  simp only [countField, within_iff]
  unfold curveRange
  omega

/-- Settles O34. -/
theorem stagedFieldsAreWrittenApart : Obligations.StagedFieldsAreWrittenApart :=
  ⟨fun w _ => writesApart_of groupFields_ordered groupFields_apart w trivial,
    fun w _ hlen => writesApart_of constantFields_ordered constantFields_apart w hlen,
    fun w _ hqs hts => writesApart_of curveFields_ordered curveFields_apart w ⟨hqs, hts⟩,
    fun w g => (writeField_isSome groupFields_ordered w g).trans (groupFields_accept ..),
    fun w k => (writeField_isSome constantFields_ordered w k).trans (constantFields_accept ..),
    fun w c => (writeField_isSome curveFields_ordered w c).trans (curveFields_accept ..)⟩

end Sys2Proof.Machine

/-! The staging commands and the commit check (O33). -/

namespace Sys2Proof.Machine

/-! ## The first failing field -/

/-- Of a list in order, the first member of a kind is the one before which none stands. -/
theorem find_first {α : Type} {r : α → α → Prop} {p : α → Bool} {l : List α} (hl : l.Pairwise r) {x : α} (hx : x ∈ l) (hp : p x = true)
    (hfirst : ∀ y ∈ l, r y x → p y = false) : l.find? p = some x := by
  induction l with
  | nil => exact absurd hx nofun
  | cons y rest ih =>
    obtain ⟨hy, hrest⟩ := List.pairwise_cons.mp hl
    rcases List.mem_cons.mp hx with rfl | hx
    · rw [List.find?_cons, hp]
    · rw [List.find?_cons, hfirst y (List.mem_cons_self ..) (hy x hx)]
      exact ih hrest hx fun z hz => hfirst z (List.mem_cons_of_mem _ hz)

section
variable {α : Type} {fs : List (Field α)} {a : α}

theorem firstBad_first (hs : fs.Pairwise Field.before) {x : Field α} (hx : x ∈ fs) (hbad : x.good a = false)
    (hfirst : ∀ y ∈ fs, y.before x → y.good a = true) : firstBad fs a = some (x.row, x.index) := by
  rw [firstBad, find_first hs hx (by rw [hbad]; rfl) fun y hy hyx => by rw [hfirst y hy hyx]; rfl]
  rfl

theorem firstBad_none (h : ∀ x ∈ fs, x.good a = true) : firstBad fs a = none := by
  rw [firstBad, List.find?_eq_none.mpr fun x hx => by rw [h x hx]; nofun]
  rfl

theorem Field.good_iff {x : Field α} : x.good a = true ↔ ∃ n, x.get a = some n ∧ x.accepts n = true := by
  unfold Field.good
  cases x.get a <;> simp

/-- The fields of an ordered list whose values lie in the ranges that the list has. -/
theorem Field.good_range (hs : fs.Pairwise Field.before) {range : Nat → Nat → Nat → Prop}
    (hrange : ∀ row index n, accepted fs row index n ↔ range row index n) {x : Field α} (hx : x ∈ fs) :
    x.good a = true ↔ ∃ n, x.get a = some n ∧ range x.row x.index n := by
  refine Field.good_iff.trans (exists_congr fun n => and_congr_right fun _ => (Iff.trans ?_ (hrange ..)))
  refine ⟨fun h => ⟨x, hx, rfl, rfl, h⟩, fun ⟨y, hy, hrow, hindex, h⟩ => ?_⟩
  rwa [field_unique hs hx hy ⟨hrow.symm, hindex.symm⟩]

/-- The commit check of a list of fields (02 R36). -/
theorem firstBad_range (hs : fs.Pairwise Field.before) {range : Nat → Nat → Nat → Prop}
    (hrange : ∀ row index n, accepted fs row index n ↔ range row index n) {good : Field α → Prop}
    (hgood : ∀ x, good x ↔ ∃ n, x.get a = some n ∧ range x.row x.index n) :
    (∀ x ∈ fs, ¬ good x → (∀ y ∈ fs, y.before x → good y) → firstBad fs a = some (x.row, x.index))
    ∧ ((∀ x ∈ fs, good x) → firstBad fs a = none) := by
  have hiff {x : Field α} (hx : x ∈ fs) : x.good a = true ↔ good x := (Field.good_range hs hrange hx).trans (hgood x).symm
  exact ⟨fun x hx hbad hfirst => firstBad_first hs hx (Bool.eq_false_iff.mpr (mt (hiff hx).mp hbad))
    fun y hy hyx => (hiff hy).mpr (hfirst y hy hyx), fun h => firstBad_none fun x hx => (hiff hx).mpr (h x hx)⟩

end

/-! ## Cross-field rules -/

theorem Store.namesValid_false {t : Store} {x : ElementSettings} :
    t.namesValid x = false ↔ x.enabled = true ∧ ∀ d w, t.curves.get x.curve ≠ .valid d w := by
  unfold Store.namesValid
  cases t.curves.get x.curve <;> simp [Stored.validContent]

theorem firstBreak_none {holds : Nat → Nat → Bool} (m : Nat) {l : List Nat}
    (h : ∀ j a b, l[j]? = some a → l[j + 1]? = some b → holds a b = true) : firstBreak holds m l = none := by
  induction l generalizing m with
  | nil => rfl
  | cons a rest ih =>
    cases rest with
    | nil => rfl
    | cons b rest =>
      rw [firstBreak, if_pos (h 0 a b rfl rfl)]
      exact ih (m + 1) fun j => h (j + 1)

theorem firstBreak_at {holds : Nat → Nat → Bool} (m : Nat) {l : List Nat} {k a b : Nat} (ha : l[k]? = some a) (hb : l[k + 1]? = some b)
    (hbad : holds a b = false) (h : ∀ j, j < k → ∀ a b, l[j]? = some a → l[j + 1]? = some b → holds a b = true) :
    firstBreak holds m l = some (m + k + 1) := by
  induction l generalizing m k with
  | nil => exact absurd ha nofun
  | cons x rest ih =>
    cases rest with
    | nil => exact absurd hb (by simp)
    | cons y rest =>
      cases k with
      | zero =>
        cases ha
        cases hb
        rw [firstBreak, if_neg (by rw [hbad]; nofun)]
      | succ k =>
        rw [firstBreak, if_pos (h 0 (Nat.succ_pos k) x y rfl rfl), ih (m + 1) ha hb fun j hj => h (j + 1) (by omega)]
        congr 1
        omega

/-! ## The commit check of a curve -/

theorem curveFieldsTo_ordered (n : Nat) : (curveFieldsTo n).Pairwise Field.before := by
  have block {F : Nat → Field CurveDraft} (hrow : ∀ j k, (F j).row = (F k).row) (hindex : ∀ k, (F k).index = k + 1) :
      ((List.range n).map F).Pairwise Field.before :=
    List.pairwise_map.mpr (List.pairwise_lt_range.imp fun {j k} hjk => .inr ⟨hrow j k, by rw [hindex, hindex]; omega⟩)
  refine List.pairwise_cons.mpr ⟨fun x hx => ?_, List.pairwise_append.mpr ⟨block (fun _ _ => rfl) fun _ => rfl,
    block (fun _ _ => rfl) fun _ => rfl, fun x hx y hy => ?_⟩⟩
  · rcases List.mem_append.mp hx with hx | hx <;> obtain ⟨k, -, rfl⟩ := List.mem_map.mp hx
    · exact .inl Nat.zero_lt_one
    · exact .inl Nat.two_pos
  · obtain ⟨j, -, rfl⟩ := List.mem_map.mp hx
    obtain ⟨k, -, rfl⟩ := List.mem_map.mp hy
    exact .inl Nat.one_lt_two

section
variable {c : CurveDraft} {n : Nat}

theorem countField_good (hn : c.count = some n) : countField.good c = true ↔ 2 ≤ n ∧ n ≤ 16 := by
  rw [Field.good_iff]
  simp [countField, hn, within_iff]

theorem qField_good (k : Nat) : (qField (k + 1)).good c = true ↔ ∃ x, c.qs[k]? = some (some x) ∧ 64 ≤ x ∧ x ≤ 2560 := by
  rw [Field.good_iff]
  simp [qField, Option.join_eq_some_iff, within_iff]

theorem tField_good (k : Nat) : (tField (k + 1)).good c = true ↔ ∃ x, c.ts[k]? = some (some x) ∧ 10 ≤ x ∧ x ≤ 600000 := by
  rw [Field.good_iff]
  simp [tField, Option.join_eq_some_iff, within_iff]

theorem commitCheck_curve (t : Store) (m : CurveNo) (hn : c.count = some n) :
    t.commitCheck (.curve m c) = (firstBad (curveFieldsTo n) c).or c.cross := by
  rw [Store.commitCheck, hn]
  rfl

/-- A count that is unset or out of range is the first failing field. -/
theorem commitCheck_count (t : Store) (m : CurveNo) (hbad : ∀ n, c.count = some n → n < 2 ∨ 16 < n) :
    t.commitCheck (.curve m c) = some (0, 0) := by
  have hcount : countField.good c = false := by
    refine Bool.eq_false_iff.mpr fun hgood => ?_
    obtain ⟨k, hk, hv⟩ := Field.good_iff.mp hgood
    have hbad := hbad k hk
    have hin := within_iff.mp hv
    omega
  have hfirst : firstBad (curveFieldsTo (c.count.getD 0)) c = some (0, 0) := by
    rw [firstBad, curveFieldsTo, List.find?_cons, hcount]
    rfl
  rw [Store.commitCheck, hfirst]
  rfl

/-- The values of a list up to a count. -/
theorem take_values {l : List (Option Nat)} {q : Nat → Nat} (h : ∀ k, k < n → l[k]? = some (some (q k))) :
    (l.take n).map (·.getD 0) = (List.range n).map q := by
  refine List.ext_getElem? fun k => ?_
  by_cases hk : k < n
  · simp [hk, h k hk]
  · rw [List.getElem?_eq_none (by rw [List.length_map, List.length_take]; omega),
      List.getElem?_eq_none (by rw [List.length_map, List.length_range]; omega)]

theorem getElem_range_map {q : Nat → Nat} {k a : Nat} : ((List.range n).map q)[k]? = some a ↔ k < n ∧ q k = a := by
  by_cases hk : k < n <;> simp [hk]

theorem cross_eq (hn : c.count = some n) {q T : Nat → Nat} (hn2 : 2 ≤ n) (hq : ∀ k, k < n → c.qs[k]? = some (some (q k)))
    (ht : ∀ k, k < n → c.ts[k]? = some (some (T k))) : c.cross =
      if q 0 ≠ 64 then some (1, 1)
      else
        match firstBreak (fun a b => decide (a < b)) 1 ((List.range n).map q) with
        | some k => some (1, k)
        | none => (firstBreak (fun a b => decide (b ≤ a)) 1 ((List.range n).map T)).map (fun k => (2, k)) := by
  have hqs : c.qsTo = (List.range n).map q := by
    rw [CurveDraft.qsTo, hn]
    exact take_values hq
  have hts : c.tsTo = (List.range n).map T := by
    rw [CurveDraft.tsTo, hn]
    exact take_values ht
  have hhead : ((List.range n).map q).head? ≠ some 64 ↔ q 0 ≠ 64 := by
    rw [List.head?_eq_getElem?, Ne, getElem_range_map]
    simp only [not_and, Ne]
    exact ⟨fun h => h (by omega), fun h _ => h⟩
  unfold CurveDraft.cross
  rw [hqs, hts]
  exact ite_of_iff hhead rfl (by cases firstBreak (fun a b => decide (a < b)) 1 ((List.range n).map q) <;> rfl)

end

/-! ## The commands -/

theorem readStaged_layout (a b : Byte) {v : Nat} (hv : v < 4294967296) :
    readStaged ([a, b] ++ be4 v) = some ⟨a.toNat, b.toNat, v⟩ := by
  have hr := read4_be4 hv []
  rw [List.append_nil] at hr
  simp [readStaged, read1, hr, whole]

theorem openStaging_of {s : State} {x : TargetFields} {y : Target} (h : s.store.staging = .closed) (hx : x.target = some y) :
    openStaging x s = (s.putStaging (.opened (s.store.draftOf y)), ok []) := by
  unfold openStaging
  simp only [h, hx]

theorem openStaging_misfit {s : State} {x : TargetFields} (h : s.store.staging = .closed) (hx : x.target = none) :
    openStaging x s = (s, refuse .badField) := by
  unfold openStaging
  simp only [h, hx]

theorem openStaging_opened {s : State} {x : TargetFields} {d : Draft} (h : s.store.staging = .opened d) :
    openStaging x s = (s, refuse .wrongState) := by
  unfold openStaging
  simp only [h]

/-- Settles O33. -/
theorem stagingCommandsAnswer : Obligations.StagingCommandsAnswer := by
  refine ⟨fun s hport => ⟨fun hclosed => ?_, fun d hopen => ?_⟩, ?_, ?_, ?_, ?_, ?_⟩
  · have hidle : s.restartSupervision.committing = false := State.committing_eq_false fun d h => absurd (hclosed.symm.trans h) nofun
    have opens {p : Payload} {x : TargetFields} {y : Target} (hr : readTarget p = some x) (hx : x.target = some y) :
        exec (.openStaging p) s = .next ((s.restartSupervision.putStaging (.opened (s.store.draftOf y))).answer 5#8 (ok [])) :=
      serve_answers hport hr ((busyWhileCommitting_idle hidle).trans (openStaging_of (s := s.restartSupervision) hclosed hx))
    have refuses {p : Payload} {x : TargetFields} (hr : readTarget p = some x) (hx : x.target = none) :
        exec (.openStaging p) s = .next (s.restartSupervision.answer 5#8 (refuse .badField)) :=
      serve_answers hport hr ((busyWhileCommitting_idle hidle).trans (openStaging_misfit (s := s.restartSupervision) hclosed hx))
    refine ⟨fun f g => ?_, fun n => ?_, fun f => ?_, fun a b hbad => refuses rfl ?_, fun a ha => refuses rfl ?_,
      fun a rest ha => refuses (readTarget_unnamed rest ha) rfl, fun a b v => serve_answers hport rfl ?_, serve_answers hport rfl ?_,
      serve_answers hport rfl ((busyWhileCommitting_idle hidle).trans ?_)⟩
    · have hread : readTarget [0#8, byte f.num, byte g.num] = some (.group f.num g.num) := by
        simp [readTarget, read1, byte_toNat f.num_small, byte_toNat g.num_small, whole]
      refine (opens hread (y := .group f g) (by simp [TargetFields.target])).trans ?_
      rw [Store.draftOf]
      cases (s.store.groups.get f).get g <;> rfl
    · have hread : readTarget [1#8, byte n.place] = some (.curve n.place) := by
        simp [readTarget, read1, byte_toNat n.place_small, whole]
      refine (opens hread (y := .curve n) (by simp [TargetFields.target])).trans ?_
      rw [Store.draftOf]
      cases s.store.curves.get n <;> rfl
    · have hread : readTarget [2#8, byte f.num] = some (.feeder f.num) := by
        simp [readTarget, read1, byte_toNat f.num_small, whole]
      refine (opens hread (y := .feeder f) (by simp [TargetFields.target])).trans ?_
      rw [Store.draftOf]
      cases s.store.constants.get f <;> rfl
    · by_cases ha : a.toNat < 1 ∨ 4 < a.toNat
      · simp [TargetFields.target, Ix4.ofNum_eq_none.mpr ha]
      · have hb : Ix4.ofNum b.toNat = none := Ix4.ofNum_eq_none.mpr (by omega)
        simp [TargetFields.target, hb]
    · have hnone : Ix4.ofPlace a.toNat = none := Ix4.ofNum_eq_none.mpr (.inr (by omega))
      simp [TargetFields.target, hnone]
    · simp [writeStaged, hclosed, refuse]
    · simp [discardStaging, hclosed, refuse]
    · simp [commitStaging, hclosed, refuse]
  · have hidle : s.restartSupervision.committing = false := State.committing_eq_false fun d h => absurd (hopen.symm.trans h) nofun
    have refuses {p : Payload} {x : TargetFields} (hr : readTarget p = some x) :
        exec (.openStaging p) s = .next (s.restartSupervision.answer 5#8 (refuse .wrongState)) :=
      serve_answers hport hr ((busyWhileCommitting_idle hidle).trans (openStaging_opened hopen))
    refine ⟨fun a b => ⟨refuses rfl, refuses rfl, refuses rfl⟩, fun a rest ha => refuses (readTarget_unnamed rest ha), fun a b v hv => ?_,
      serve_answers hport rfl ?_, ?_⟩
    · have hread := readStaged_layout a b hv
      cases hw : d.write ⟨a.toNat, b.toNat, v⟩ with
      | none => exact serve_answers hport hread (by simp only [writeStaged, State.restartSupervision_store, hopen, hw])
      | some d' => exact serve_answers hport hread (by simp only [writeStaged, State.restartSupervision_store, hopen, hw])
    · simp only [discardStaging, State.restartSupervision_store, hopen]
    · have commits {r : State × Reply} (hr : commitStaging () s.restartSupervision = r) :
          exec (.commitStaging []) s = .next (r.1.answer 9#8 r.2) :=
        serve_answers hport rfl ((busyWhileCommitting_idle hidle).trans hr)
      cases hc : s.store.commitCheck d with
      | none =>
        exact commits (r := (s.restartSupervision.putStaging (.committing d), ok [])) (by simp only [commitStaging, State.restartSupervision_store, hopen, hc])
      | some x => exact commits (by simp only [commitStaging, State.restartSupervision_store, hopen, hc]; rfl)
  · intro t f g c good unnamed hgood hunnamed
    obtain ⟨hbad, hnone⟩ := firstBad_range groupFields_ordered groupFields_accept hgood
    have hcross {x : ElementSettings} : t.namesValid x = false ↔ unnamed x := Store.namesValid_false.trans (hunnamed x).symm
    refine ⟨fun x hx hb hfirst => ?_, fun hall => ?_⟩
    · rw [Store.commitCheck, hbad x hx hb hfirst]
      rfl
    · have hcheck : t.commitCheck (.group f g c) = t.groupCross c := by
        rw [Store.commitCheck, hnone hall]
        rfl
      rw [hcheck]
      exact ⟨fun hp => if_pos (hcross.mpr hp), fun hp he => (if_neg (mt hcross.mp hp)).trans (if_pos (hcross.mpr he)),
        fun hp he => (if_neg (mt hcross.mp hp)).trans (if_neg (mt hcross.mp he))⟩
  · intro t f k good hgood
    exact firstBad_range constantFields_ordered constantFields_accept hgood
  · exact fun t m c hbad => commitCheck_count t m hbad
  · intro t m c n goodQ goodT hn hn2 hn16 hgoodQ hgoodT
    have hq (k : Nat) : (qField (k + 1)).good c = true ↔ goodQ k := (qField_good k).trans (hgoodQ k).symm
    have ht (k : Nat) : (tField (k + 1)).good c = true ↔ goodT k := (tField_good k).trans (hgoodT k).symm
    have hcount := (countField_good hn).mpr ⟨hn2, hn16⟩
    refine ⟨fun k hk hbad hfirst => ?_, fun k hk hall hbad hfirst => ?_⟩
    · rw [commitCheck_curve t m hn, firstBad_first (curveFieldsTo_ordered n) (mem_curveFieldsTo.mpr (.inr (.inl ⟨k, hk, rfl⟩)))
        (Bool.eq_false_iff.mpr (mt (hq k).mp hbad)) fun y hy hyx => ?_]
      · rfl
      · rcases mem_curveFieldsTo.mp hy with rfl | ⟨j, hj, rfl⟩ | ⟨j, hj, rfl⟩
        · exact hcount
        · have hjk : j < k := by
            simp only [Field.before, qField] at hyx
            omega
          exact (hq j).mpr (hfirst j hjk)
        · simp [Field.before, qField, tField] at hyx
    · rw [commitCheck_curve t m hn, firstBad_first (curveFieldsTo_ordered n) (mem_curveFieldsTo.mpr (.inr (.inr ⟨k, hk, rfl⟩)))
        (Bool.eq_false_iff.mpr (mt (ht k).mp hbad)) fun y hy hyx => ?_]
      · rfl
      · rcases mem_curveFieldsTo.mp hy with rfl | ⟨j, hj, rfl⟩ | ⟨j, hj, rfl⟩
        · exact hcount
        · exact (hq j).mpr (hall j hj)
        · have hjk : j < k := by
            simp only [Field.before, tField] at hyx
            omega
          exact (ht j).mpr (hfirst j hjk)
  · intro t m c n q T hn hn2 hn16 hq ht
    have hgood : ∀ y ∈ curveFieldsTo n, y.good c = true := by
      intro y hy
      rcases mem_curveFieldsTo.mp hy with rfl | ⟨j, hj, rfl⟩ | ⟨j, hj, rfl⟩
      · exact (countField_good hn).mpr ⟨hn2, hn16⟩
      · exact (qField_good j).mpr ⟨_, hq j hj⟩
      · exact (tField_good j).mpr ⟨_, ht j hj⟩
    have hcheck : t.commitCheck (.curve m c) = _ := (commitCheck_curve t m hn).trans (congrArg (·.or c.cross) (firstBad_none hgood))
    rw [hcheck, Option.none_or, cross_eq hn hn2 (fun k hk => (hq k hk).1) fun k hk => (ht k hk).1]
    have ascends {k : Nat} (hup : ∀ j, j < k → j + 1 < n → q j < q (j + 1)) (j : Nat) (hj : j < k) (a b : Nat)
        (ha : ((List.range n).map q)[j]? = some a) (hb : ((List.range n).map q)[j + 1]? = some b) : decide (a < b) = true := by
      obtain ⟨-, rfl⟩ := getElem_range_map.mp ha
      obtain ⟨hjn, rfl⟩ := getElem_range_map.mp hb
      exact decide_eq_true (hup j hj hjn)
    have descends {k : Nat} (hdown : ∀ j, j < k → j + 1 < n → T (j + 1) ≤ T j) (j : Nat) (hj : j < k) (a b : Nat)
        (ha : ((List.range n).map T)[j]? = some a) (hb : ((List.range n).map T)[j + 1]? = some b) : decide (b ≤ a) = true := by
      obtain ⟨-, rfl⟩ := getElem_range_map.mp ha
      obtain ⟨hjn, rfl⟩ := getElem_range_map.mp hb
      exact decide_eq_true (hdown j hj hjn)
    refine ⟨fun h0 => if_pos h0, fun k h0 hk hbad hup => (if_neg (Classical.not_not.mpr h0)).trans ?_, fun h0 hup => ?_⟩
    · rw [firstBreak_at 1 (getElem_range_map.mpr ⟨by omega, rfl⟩) (getElem_range_map.mpr ⟨hk, rfl⟩) (decide_eq_false (Nat.not_lt.mpr hbad))
        (ascends fun j hj _ => hup j hj)]
      simp only [Option.some.injEq, Prod.mk.injEq, true_and]
      omega
    · rw [firstBreak_none 1 fun j a b ha hb => ascends (k := j + 1) (fun i _ => hup i) j (by omega) a b ha hb]
      refine ⟨fun k hk hbad hdown => (if_neg (Classical.not_not.mpr h0)).trans ?_, fun hdown => (if_neg (Classical.not_not.mpr h0)).trans ?_⟩
      · rw [firstBreak_at 1 (getElem_range_map.mpr ⟨by omega, rfl⟩) (getElem_range_map.mpr ⟨hk, rfl⟩) (decide_eq_false (Nat.not_le.mpr hbad))
          (descends fun j hj _ => hdown j hj)]
        simp only [Option.map_some, Option.some.injEq, Prod.mk.injEq, true_and]
        omega
      · rw [firstBreak_none 1 fun j a b ha hb => descends (k := j + 1) (fun i _ => hdown i) j (by omega) a b ha hb]
        rfl

end Sys2Proof.Machine

/-! The completion of a commit (O35), and the second tick with the scrubber (O36). -/

namespace Sys2Proof.Machine

/-! ## The completion of a commit (O35) -/

theorem exec_commitCompletion {s : State} {d : Draft} (h : s.store.staging = .committing d) (found : Option Content) :
    exec (.commitCompletion found) s = .next (s.completeCommit d found) := by
  simp only [exec, execCommitCompletion, h]

theorem exec_commitCompletion_idle {s : State} (h : ∀ d, s.store.staging ≠ .committing d) (found : Option Content) :
    exec (.commitCompletion found) s = .next s := by
  unfold exec execCommitCompletion
  cases hs : s.store.staging with
  | committing d => exact absurd hs (h d)
  | _ => rfl

/-- Settles O35. -/
theorem commitCompletionWritesTheRecord : Obligations.CommitCompletionWritesTheRecord := by
  refine ⟨fun c => ?_, fun s f g c found h => ?_, fun s f k found h => ?_, fun s n c found h => ?_, fun s found h => ?_⟩
  · rw [checkWord, BitVec.add_comm, BitVec.add_not_self]
    rfl
  · rw [exec_commitCompletion h]
    rfl
  · rw [exec_commitCompletion h]
    rfl
  · rw [exec_commitCompletion h]
    rfl
  · exact exec_commitCompletion_idle h found

/-! ## Carries of the calendar (O36) -/

theorem longestMonth_eq : ∀ m < 13, 1 ≤ m → m ≠ 2 → longestMonth m = if m ∈ [4, 6, 9, 11] then 30 else 31 := by decide

/-- The length of a month (05 R90). -/
theorem monthLength_of_month {y m : Nat} (hm : 1 ≤ m ∧ m ≤ 12) : monthLength y m =
    if m = 2 then (if y % 4 = 0 then 29 else 28) else if m ∈ [4, 6, 9, 11] then 30 else 31 := by
  have hleap : leap y = true ↔ y % 4 = 0 := decide_eq_true_iff
  obtain ⟨hm1, hm12⟩ := hm
  unfold monthLength
  by_cases hm2 : m = 2
  · subst hm2
    simp [longestMonth, hleap]
  · rw [if_neg fun h => hm2 h.1, if_neg hm2]
    exact longestMonth_eq m (by omega) hm1 hm2

/-- A second that ends no minute (05 R90). -/
theorem Clock.tick_within {k : Clock} (h : k.second < 59) : k.tick = ({ k with second := k.second + 1 }, none) := if_pos h

/-- The tick that carries the second from 59 to 0 (05 R90). -/
theorem Clock.tick_carry {k : Clock} {m : Minute} {weekday : Nat} {date : Bool} (hr : k.real = true) (h59 : k.second = 59)
    (h : (m, weekday, date) = (
      if k.minute.minute < 59 then ({ k.minute with minute := k.minute.minute + 1 }, k.weekday, false)
      else if k.minute.hour < 23 then ({ k.minute with hour := k.minute.hour + 1, minute := 0 }, k.weekday, false)
      else (
        if k.minute.day < (if k.minute.month = 2 then (if k.minute.year % 4 = 0 then 29 else 28)
            else if k.minute.month ∈ [4, 6, 9, 11] then 30 else 31) then
          ⟨k.minute.year, k.minute.month, k.minute.day + 1, 0, 0⟩
        else if k.minute.month < 12 then ⟨k.minute.year, k.minute.month + 1, 1, 0, 0⟩
        else ⟨if k.minute.year = 2099 then 2000 else k.minute.year + 1, 1, 1, 0, 0⟩,
        (k.weekday + 1) % 7, true))) : k.tick = (⟨m, 0, weekday⟩, some ⟨date, decide (m.year < k.minute.year)⟩) := by
  simp only [Clock.real, Minute.real, Bool.and_eq_true, decide_eq_true_eq] at hr
  obtain ⟨⟨hy, hy', hmo, hmo', -, -, -, -⟩, -, hweek⟩ := hr
  have hmonth := monthLength_of_month (y := k.minute.year) ⟨hmo, hmo'⟩
  unfold Clock.tick
  rw [if_neg (by omega)]
  dsimp only
  by_cases h1 : k.minute.minute < 59
  · rw [if_pos h1, Prod.mk.injEq, Prod.mk.injEq] at h
    obtain ⟨rfl, rfl, rfl⟩ := h
    rw [if_pos h1]
    simp
  · rw [if_neg h1] at h ⊢
    by_cases h2 : k.minute.hour < 23
    · rw [if_pos h2, Prod.mk.injEq, Prod.mk.injEq] at h
      obtain ⟨rfl, rfl, rfl⟩ := h
      rw [if_pos h2]
      simp
    · rw [if_neg h2, Prod.mk.injEq, Prod.mk.injEq] at h
      obtain ⟨hm, rfl, rfl⟩ := h
      have hweekday : (if k.weekday < 6 then k.weekday + 1 else 0) = (k.weekday + 1) % 7 := by
        split <;> omega
      rw [← hmonth] at hm
      rw [if_neg h2, hweekday, nextDay]
      dsimp only
      by_cases hday : k.minute.day < monthLength k.minute.year k.minute.month
      · rw [if_pos hday] at hm ⊢
        have hwrap : ¬ 2099 < k.minute.year := by omega
        simp [hm, hwrap]
      · rw [if_neg hday] at hm ⊢
        by_cases hmonth : k.minute.month < 12
        · rw [if_pos hmonth] at hm ⊢
          have hwrap : ¬ 2099 < k.minute.year := by omega
          simp [hm, hwrap]
        · rw [if_neg hmonth] at hm ⊢
          by_cases hyear : k.minute.year = 2099
          · simp [hm, hyear]
          · have hwrap : ¬ 2099 < k.minute.year + 1 := by omega
            simp [hm, hwrap, hyear]

/-! ## The scrubber (O36) -/

/-- A search ends at the first place at which something is found. -/
theorem findSome_first {α β : Type} {p : α → Option β} {l : List α} {i : Nat} {a : α} {b : β} (ha : l[i]? = some a) (hb : p a = some b)
    (hfirst : ∀ j, j < i → ∀ c, l[j]? = some c → p c = none) : l.findSome? p = some b := by
  induction l generalizing i with
  | nil => exact absurd ha nofun
  | cons x rest ih =>
    cases i with
    | zero =>
      cases ha
      rw [List.findSome?_cons, hb]
    | succ i =>
      rw [List.findSome?_cons, hfirst 0 (Nat.succ_pos i) x rfl]
      exact ih ha fun j hj => hfirst (j + 1) (by omega)

theorem Store.rotation_get {t : Store} {i n : Nat} : t.rotation[i]? = some n ↔ i < 24 ∧ (t.scrub - 1 + i) % 24 + 1 = n := by
  by_cases hi : i < 24 <;> simp [Store.rotation, hi]

/-- The VALID record that the scrubber checks, and its position (02 R40). -/
def Store.scrubbed (t : Store) : Option (Nat × Target × Content × Word16) :=
  t.rotation.findSome? (fun n => (t.validAt n).map (fun x => (n, x)))

theorem Store.scrubbed_none {t : Store} (h : ∀ n, 1 ≤ n → n ≤ 24 → t.validAt n = none) : t.scrubbed = none := by
  refine List.findSome?_eq_none_iff.mpr fun n hn => ?_
  obtain ⟨i, hi⟩ := List.mem_iff_getElem?.mp hn
  obtain ⟨hi, rfl⟩ := Store.rotation_get.mp hi
  rw [h _ (by omega) (by omega)]
  rfl

theorem Store.scrubbed_first {t : Store} {i n : Nat} {x : Target × Content × Word16} (hi : i < 24) (hn : n = (t.scrub - 1 + i) % 24 + 1)
    (hx : t.validAt n = some x) (hfirst : ∀ j, j < i → t.validAt ((t.scrub - 1 + j) % 24 + 1) = none) : t.scrubbed = some (n, x) := by
  refine findSome_first (Store.rotation_get.mpr ⟨hi, hn.symm⟩) (by rw [hx]; rfl) fun j hj c hc => ?_
  obtain ⟨-, rfl⟩ := Store.rotation_get.mp hc
  rw [hfirst j hj]
  rfl

theorem State.scrub_self {s : State} (h : s.store.scrubbed = none) (found : Option Content) : s.scrub found = s := by
  unfold State.scrub
  rw [Store.scrubbed] at h
  simp only [h]

theorem State.scrub_of {s : State} {n : Nat} {x : Target} {c : Content} {w : Word16} (h : s.store.scrubbed = some (n, x, c, w))
    (found : Option Content) : s.scrub found =
      if checkWord (givenBack c found) = w then { s with store := { s.store with scrub := n % 24 + 1 } }
      else State.tellRecord ({ s with
        store := Store.write { s.store with scrub := n % 24 + 1 } x false (givenBack c found) w }.give x.scope (.recordFaulty x .scrub)) x := by
  unfold State.scrub
  rw [Store.scrubbed] at h
  simp only [h]

/-- A write of a record leaves the scrub pointer. -/
theorem Store.write_scrub (t : Store) (n : Nat) (x : Target) (valid : Bool) (c : Content) (w : Word16) :
    Store.write { t with scrub := n } x valid c w = { t.write x valid c w with scrub := n } := by
  cases x <;> cases c <;> rfl

theorem exec_secondTick (found : Option Content) (s : State) :
    exec (.secondTick found) s = .next ((s.tickCalendar MinuteTaker.all).scrub found) := rfl

/-- A second tick that carries no minute. -/
theorem State.tickCalendar_of {s : State} {c : Calendar} (h : s.cal.tick = (c, none)) (order : List MinuteTaker) :
    s.tickCalendar order = { s with cal := c } := by
  unfold State.tickCalendar
  simp only [h]

/-- A second tick that carries a minute hands it on. -/
theorem State.tickCalendar_carry {s : State} {c : Calendar} {d : Carry} {k : Clock} (h : s.cal.tick = (c, some d)) (hk : c.clock = some k)
    (order : List MinuteTaker) : s.tickCalendar order = State.minuteChange { s with cal := c } k d order := by
  unfold State.tickCalendar
  simp only [h, hk]

theorem Calendar.tick_unset {c : Calendar} (h : c.clock = none) : c.tick = ({ c with prescaler := 0, secondLength := 32768 }, none) := by
  unfold Calendar.tick
  simp only [h]
  rfl

theorem Calendar.tick_set {c : Calendar} {k : Clock} (h : c.clock = some k) : c.tick = ({ c with
    clock := some k.tick.1
    prescaler := 0
    secondLength := if k.tick.2.isSome then (32768 - 2 * c.trim).toNat else 32768 }, k.tick.2) := by
  unfold Calendar.tick
  simp only [h]
  rfl

/-- Settles O36. -/
theorem secondTickAdvancesAndScrubs : Obligations.SecondTickAdvancesAndScrubs := by
  refine ⟨fun found s hk => ?_, fun found s k hk h59 => ?_, fun found s k m weekday date hk hreal h59 hm => ?_,
    fun found s h => State.scrub_self (Store.scrubbed_none h) found, fun found s i n x c w hi hn hx hfirst => ?_⟩
  · rw [exec_secondTick, State.tickCalendar_of (Calendar.tick_unset hk)]
  · have htick := Calendar.tick_set hk
    rw [Clock.tick_within h59] at htick
    rw [exec_secondTick, State.tickCalendar_of htick]
    rfl
  · have htick := Calendar.tick_set hk
    rw [Clock.tick_carry hreal h59 hm] at htick
    rw [exec_secondTick, State.tickCalendar_carry htick rfl]
    rfl
  · rw [State.scrub_of (Store.scrubbed_first hi hn hx hfirst), Store.write_scrub]
    rfl

end Sys2Proof.Machine

/-! The season calendar: windows, floors and levels, and the commands that write them (O48). -/

namespace Sys2Proof.Machine

/-! ## Windows -/

theorem leap_false {y : Nat} : leap y = false ↔ y % 4 ≠ 0 := decide_eq_false_iff_not

theorem dateLe_iff {x y : Nat × Nat} : dateLe x y = true ↔ notAfter x y := decide_eq_true_iff

theorem Window.startIn_eq (w : Window) (y : Nat) :
    w.startIn y = if y % 4 ≠ 0 ∧ (w.startMonth, w.startDay) = (2, 29) then (3, 1) else (w.startMonth, w.startDay) :=
  ite_of_iff (by rw [leap_false, Prod.mk.injEq]; grind) rfl rfl

theorem Window.endIn_eq (w : Window) (y : Nat) :
    w.endIn y = if y % 4 ≠ 0 ∧ (w.endMonth, w.endDay) = (2, 29) then (2, 28) else (w.endMonth, w.endDay) :=
  ite_of_iff (by rw [leap_false, Prod.mk.injEq]; grind) rfl rfl

theorem Window.leapDay_iff {w : Window} :
    w.leapDay = true ↔ (w.startMonth, w.startDay) = (2, 29) ∧ (w.endMonth, w.endDay) = (2, 29) := by
  simp [Window.leapDay, and_assoc]

/-- The days that a window covers (05 R95). -/
theorem Window.covers_iff (w : Window) (m : Minute) : w.covers m.year m.month m.day = true ↔ windowCovers w m := by
  have hsome : (∃ first last : Nat × Nat, first = w.startIn m.year ∧ last = w.endIn m.year ∧
      if first.1 < last.1 ∨ (first.1 = last.1 ∧ first.2 ≤ last.2) then
        notAfter first (m.month, m.day) ∧ notAfter (m.month, m.day) last
      else notAfter first (m.month, m.day) ∨ notAfter (m.month, m.day) last) ↔
      (if dateLe (w.startIn m.year) (w.endIn m.year) then
        dateLe (w.startIn m.year) (m.month, m.day) && dateLe (m.month, m.day) (w.endIn m.year)
      else dateLe (w.startIn m.year) (m.month, m.day) || dateLe (m.month, m.day) (w.endIn m.year)) = true := by
    have hle : dateLe (w.startIn m.year) (w.endIn m.year) = true ↔ (w.startIn m.year).1 < (w.endIn m.year).1
        ∨ ((w.startIn m.year).1 = (w.endIn m.year).1 ∧ (w.startIn m.year).2 ≤ (w.endIn m.year).2) := dateLe_iff
    constructor
    · rintro ⟨first, last, rfl, rfl, h⟩
      split at h
      · next hwrap =>
        rw [if_pos (hle.mpr hwrap), Bool.and_eq_true, dateLe_iff, dateLe_iff]
        exact h
      · next hwrap =>
        rw [if_neg (mt hle.mp hwrap), Bool.or_eq_true, dateLe_iff, dateLe_iff]
        exact h
    · intro h
      refine ⟨_, _, rfl, rfl, ?_⟩
      split at h
      · next hwrap =>
        rw [if_pos (hle.mp hwrap), ← dateLe_iff, ← dateLe_iff, ← Bool.and_eq_true]
        exact h
      · next hwrap =>
        rw [if_neg (mt hle.mpr hwrap), ← dateLe_iff, ← dateLe_iff, ← Bool.or_eq_true]
        exact h
  have halone : (w.leapDay = true ∧ leap m.year = false) ↔
      (m.year % 4 ≠ 0 ∧ (w.startMonth, w.startDay) = (2, 29) ∧ (w.endMonth, w.endDay) = (2, 29)) := by
    rw [Window.leapDay_iff, leap_false, and_comm]
  rw [windowCovers, ← Window.startIn_eq, ← Window.endIn_eq, hsome, ← halone]
  unfold Window.covers
  dsimp only
  by_cases hleap : w.leapDay = true ∧ leap m.year = false
  · rw [if_pos hleap]
    exact iff_of_false nofun fun h => h.1 hleap
  · rw [if_neg hleap]
    exact (and_iff_right hleap).symm

/-- An evaluation finds a slot active (05 R96). -/
theorem Calendar.activity_iff {c : Calendar} {i : Ix4} : c.activity i = true ↔
    ∃ w k, c.windows.get i = some w ∧ w.enabled = true ∧ c.clock = some k ∧ windowCovers w k.minute := by
  unfold Calendar.activity
  cases c.windows.get i <;> cases c.clock <;> simp [← Window.covers_iff]

theorem Calendar.activity_set {c : Calendar} {k : Clock} (h : c.clock = some k) (i : Ix4) : c.activity i = match c.windows.get i with
    | some w => w.enabled && w.covers k.minute.year k.minute.month k.minute.day
    | none => false := by
  unfold Calendar.activity
  rw [h]
  cases c.windows.get i <;> rfl

/-! ## Floors and levels -/

theorem Calendar.slotFloor_le (c : Calendar) (d : District) (i : Ix4) : c.slotFloor d i ≤ c.floorOf d := by
  unfold Calendar.floorOf
  cases i <;> omega

theorem Calendar.floorOf_slot (c : Calendar) (d : District) : ∃ i, c.floorOf d = c.slotFloor d i := by
  unfold Calendar.floorOf
  rcases Std.max_eq_or (a := max (c.slotFloor d .n1) (c.slotFloor d .n2)) (b := max (c.slotFloor d .n3) (c.slotFloor d .n4)) with h | h <;> rw [h]
  · rcases Std.max_eq_or (a := c.slotFloor d .n1) (b := c.slotFloor d .n2) with h | h <;> exact ⟨_, h⟩
  · rcases Std.max_eq_or (a := c.slotFloor d .n3) (b := c.slotFloor d .n4) with h | h <;> exact ⟨_, h⟩

theorem Calendar.slotFloor_of {c : Calendar} {d : District} {i : Ix4} {w : Window} (hw : c.windows.get i = some w) :
    c.slotFloor d i = if c.active.get i = true ∧ w.districts.has d = true then w.floor else 0 := by
  unfold Calendar.slotFloor
  simp only [hw]

/-- A calendar whose floors are those that it derives. -/
theorem floorsFollow_of {c : Calendar} (h : ∀ d, c.floors.get d = c.floorOf d) : floorsFollow c := by
  intro d
  rw [h d]
  refine ⟨fun i w hw hactive hdistrict => ?_, ?_⟩
  · have hslot := c.slotFloor_le d i
    rwa [Calendar.slotFloor_of hw, if_pos ⟨hactive, hdistrict⟩] at hslot
  · obtain ⟨i, hi⟩ := c.floorOf_slot d
    rw [hi]
    cases hw : c.windows.get i with
    | none =>
      refine .inl ?_
      unfold Calendar.slotFloor
      rw [hw]
    | some w =>
      rw [Calendar.slotFloor_of hw]
      split
      · next ha => exact .inr ⟨i, w, hw, ha.1, ha.2, rfl⟩
      · exact .inl rfl

theorem Calendar.settleFloors_follow (c : Calendar) : floorsFollow c.settleFloors := floorsFollow_of fun d => by cases d <;> rfl

/-- Floors that follow do so whatever else changes. -/
theorem floorsFollow.of_eq {c e : Calendar} (h : floorsFollow c) (hw : e.windows = c.windows) (ha : e.active = c.active)
    (hf : e.floors = c.floors) : floorsFollow e := by
  unfold floorsFollow
  rw [hw, ha, hf]
  exact h

theorem Calendar.settleLevels_get (c : Calendar) (d : District) : c.settleLevels.levels.get d = c.levelOf d := by cases d <;> rfl

theorem Calendar.levelOf_eq (c : Calendar) (d : District) : c.levelOf d = max (c.floors.get d) (match c.declarations.get d with
    | some x => x.level
    | none => 0) := by
  unfold Calendar.levelOf
  cases c.declarations.get d <;> rfl

theorem Calendar.settleLevels_follow (c : Calendar) : levelsFollow c.settleLevels := fun d =>
  (c.settleLevels_get d).trans (c.levelOf_eq d)

/-- Levels that follow do so whatever else changes. -/
theorem levelsFollow.of_eq {c e : Calendar} (h : levelsFollow c) (hl : e.levels = c.levels) (hf : e.floors = c.floors)
    (hd : e.declarations = c.declarations) : levelsFollow e := by
  unfold levelsFollow
  rw [hl, hf, hd]
  exact h

theorem Calendar.settleLevels_self {c : Calendar} (h : ∀ d, c.levelOf d = c.levels.get d) : c.settleLevels = c := by
  have hlevels : (⟨c.levelOf .a, c.levelOf .b⟩ : Pair Nat) = c.levels := by
    rw [h .a, h .b]
    rfl
  rw [Calendar.settleLevels, hlevels]

/-! ## Levels told -/

/-- What no derivation changes, several leave. -/
theorem State.deriveMany_same {α : Type} {P : State → α} (h : ∀ f s, P (s.derive f) = P s) (fs : List Feeder) (s : State) :
    P (s.deriveMany fs) = P s := by
  induction fs generalizing s with
  | nil => rfl
  | cons f rest ih => exact (ih _).trans (h f s)

theorem State.deriveMany_cal (fs : List Feeder) (s : State) : (s.deriveMany fs).cal = s.cal :=
  State.deriveMany_same (fun f s => (s.derive_touches f).cal) fs s

theorem State.district_eq (s : State) (f : Feeder) : s.district f = match s.constants f with
    | some k => k.district
    | none => .a := by
  unfold State.district
  cases s.constants f <;> rfl

/-- The feeders of the districts whose levels have moved are derived (05 R101). -/
theorem State.settleLevels_eq (s : State) : s.settleLevels = State.deriveMany { s with cal := s.cal.settleLevels }
    (Ix4.all.filter (fun f => decide (s.cal.levelOf (s.district f) ≠ s.cal.levels.get (s.district f)))) := by
  have hmoved (d : District) : s.cal.moved.contains d = decide (s.cal.levelOf d ≠ s.cal.levels.get d) := by
    refine Bool.eq_iff_iff.mpr ?_
    rw [List.contains_iff_mem, Calendar.moved, List.mem_filter]
    exact and_iff_right (by cases d <;> decide)
  unfold State.settleLevels
  simp only [hmoved]
  rfl

theorem State.settleLevels_cal (s : State) : s.settleLevels.cal = s.cal.settleLevels := State.deriveMany_cal _ _

theorem State.settleLevels_self {s : State} (h : ∀ d, s.cal.levelOf d = s.cal.levels.get d) : s.settleLevels = s := by
  have hnone : Ix4.all.filter (fun f => decide (s.cal.levelOf (s.district f) ≠ s.cal.levels.get (s.district f))) = [] :=
    List.filter_eq_nil_iff.mpr fun f _ => by simp [h]
  rw [State.settleLevels_eq, hnone, Calendar.settleLevels_self h]
  rfl

/-! ## Payloads -/

theorem Mask.bits_le (m : Mask) : bits [m.a, m.b] ≤ 3 := by
  cases m with
  | mk a b => cases a <;> cases b <;> decide

theorem Mask.ofByte_bits {m : Mask} (h : m.a = true ∨ m.b = true) : Mask.ofByte (bits [m.a, m.b]) = some m := by
  cases m with
  | mk a b => cases a <;> cases b <;> first | rfl | simp at h

theorem Mask.ofByte_none {n : Nat} (h : n = 0 ∨ 3 < n) : Mask.ofByte n = none := by
  match n, h with
  | 0, _ => rfl
  | n + 4, _ => rfl

theorem realMonthDay_iff {m d : Nat} : realMonthDay m d = true ↔ 1 ≤ m ∧ m ≤ 12 ∧ 1 ≤ d ∧ d ≤ longestMonth m := decide_eq_true_iff

theorem realMonthDay_small {m d : Nat} (h : realMonthDay m d = true) : m ≤ 255 ∧ d ≤ 255 := by
  have := longestMonth_le m
  have := realMonthDay_iff.mp h
  omega

theorem readWindowFields_layout (i : Ix4) {w : Window} (hs : realMonthDay w.startMonth w.startDay = true)
    (he : realMonthDay w.endMonth w.endDay = true) (hf : w.floor ≤ 5) : readWindowFields ([byte i.num] ++ windowBytes w) =
      some ⟨i.num, w.startMonth, w.startDay, w.endMonth, w.endDay, bits [w.districts.a, w.districts.b], w.floor,
        if w.enabled then 0 else 1⟩ := by
  obtain ⟨hsm, hsd⟩ := realMonthDay_small hs
  obtain ⟨hem, hed⟩ := realMonthDay_small he
  have henabled : read1 (firstOf w.enabled) = some (if w.enabled then 0 else 1, []) := by cases w.enabled <;> rfl
  simp only [readWindowFields, windowBytes, maskByte, be1, List.cons_append, List.nil_append, read1_byte i.num_small,
    read1_byte hsm, read1_byte hsd, read1_byte hem, read1_byte hed, read1_byte (byte_small w.districts.bits_le),
    read1_byte (byte_small hf), henabled, whole, Option.bind_eq_bind, Option.bind_some, Option.pure_def]

theorem readDeclare_layout (m : Mask) {l : Nat} {u : Option Minute} (hl : l ≤ 5) (hu : ∀ x, u = some x → x.real = true) :
    readDeclare (maskByte m ++ [byte l] ++ opt minuteBytes u) = some ⟨bits [m.a, m.b], l, u⟩ := by
  have huntil : readOpt readMinute (opt minuteBytes u) = some (u, []) := by
    have hopt := readOpt_opt (enc := minuteBytes) (rest := []) fun x hx => readMinute_minuteBytes (hu x hx) []
    rwa [List.append_nil] at hopt
  simp only [readDeclare, maskByte, be1, List.cons_append, List.nil_append, read1_byte (byte_small m.bits_le),
    read1_byte (byte_small hl), huntil, whole, Option.bind_eq_bind, Option.bind_some, Option.pure_def]

theorem readRecurrence_layout {r : Recurrence} (h : r.inRange = true) (rest : List Byte) :
    readRecurrence (be1 r.place ++ (r.whenBytes ++ rest)) = some (r, rest) := by
  have hplace : read1 (be1 r.place ++ (r.whenBytes ++ rest)) = some (r.place, r.whenBytes ++ rest) :=
    read1_byte (by cases r <;> exact Nat.le_of_ble_eq_true rfl) _
  rw [readRecurrence, hplace]
  cases r with
  | daily hr mi =>
    simp only [Recurrence.inRange, decide_eq_true_eq] at h
    simp [Recurrence.place, Recurrence.whenBytes, be1, read1_byte (n := hr) (by omega), read1_byte (n := mi) (by omega)]
  | weekly wd hr mi =>
    simp only [Recurrence.inRange, decide_eq_true_eq] at h
    simp [Recurrence.place, Recurrence.whenBytes, be1, read1_byte (n := wd) (by omega), read1_byte (n := hr) (by omega),
      read1_byte (n := mi) (by omega)]
  | monthly d hr mi =>
    simp only [Recurrence.inRange, decide_eq_true_eq] at h
    simp [Recurrence.place, Recurrence.whenBytes, be1, read1_byte (n := d) (by omega), read1_byte (n := hr) (by omega),
      read1_byte (n := mi) (by omega)]
  | yearly mo d hr mi =>
    simp only [Recurrence.inRange, Bool.and_eq_true, decide_eq_true_eq] at h
    obtain ⟨hmo, hd⟩ := realMonthDay_small h.1
    simp [Recurrence.place, Recurrence.whenBytes, be1, read1_byte hmo, read1_byte hd, read1_byte (n := hr) (by omega),
      read1_byte (n := mi) (by omega)]
  | once m => simp [Recurrence.place, Recurrence.whenBytes, readMinute_minuteBytes (m := m) h]

/-- An action as a payload carries it. -/
def Action.fields : Action → ActionFields
  | .declare m l d => .declare (bits [m.a, m.b]) l d
  | .lift m => .lift (bits [m.a, m.b])

theorem readAction_layout {a : Action} (hl : ∀ m l d, a = .declare m l d → l ≤ 255 ∧ ∀ x, d = some x → x ≤ 65535) (rest : List Byte) :
    readAction (be1 a.place ++ (a.fieldBytes ++ rest)) = some (a.fields, rest) := by
  have hplace : read1 (be1 a.place ++ (a.fieldBytes ++ rest)) = some (a.place, a.fieldBytes ++ rest) :=
    read1_byte (by cases a <;> exact Nat.le_of_ble_eq_true rfl) _
  rw [readAction, hplace]
  cases a with
  | declare m l d =>
    obtain ⟨hlevel, hduration⟩ := hl m l d rfl
    have hopt := readOpt_opt (enc := be2) (reader := read2) (x := d) (rest := rest) fun x hx => read2_be2 (hduration x hx) rest
    simp [Action.place, Action.fieldBytes, Action.fields, maskByte, be1, read1_byte (byte_small m.bits_le), read1_byte hlevel, hopt]
  | lift m => simp [Action.place, Action.fieldBytes, Action.fields, maskByte, be1, read1_byte (byte_small m.bits_le)]

theorem repeatOf_getD {n : Option Nat} (h : ∀ x, n = some x → x ≤ 254) : repeatOf (n.getD 255) = n := by
  cases n with
  | none => rfl
  | some x => exact if_neg (by have := h x rfl; simp only [Option.getD_some]; omega)

theorem readEntryFields_layout {n : Nat} {e : Entry} (hn : n ≤ 16) (hr : e.recurrence.inRange = true)
    (ha : ∀ m l d, e.action = .declare m l d → l ≤ 255 ∧ ∀ x, d = some x → x ≤ 65535) (hrep : ∀ x, e.repeats = some x → x ≤ 254) :
    readEntryFields ([byte n] ++ entryBytes e) = some ⟨n, e.recurrence, e.action.fields, e.repeats.getD 255⟩ := by
  have hbyte : e.repeats.getD 255 ≤ 255 := by
    cases hx : e.repeats with
    | none => decide
    | some x => exact Nat.le_trans (hrep x hx) (by decide)
  have hrepeat : read1 (repeatByte e.repeats) = some (e.repeats.getD 255, []) := read1_byte hbyte []
  simp only [readEntryFields, entryBytes, List.append_assoc, List.cons_append, List.nil_append, read1_byte (byte_small hn),
    readRecurrence_layout hr, readAction_layout ha, hrepeat, whole, Option.bind_eq_bind, Option.bind_some, Option.pure_def]

/-! ## Rules -/

theorem WindowFields.window_some {x : WindowFields} {w : Window} (h : x.window = some w) :
    (∃ m, Mask.ofByte x.districts = some m) ∧ (∃ e, onOff x.enabled = some e) ∧ realMonthDay x.startMonth x.startDay = true
      ∧ realMonthDay x.endMonth x.endDay = true ∧ 1 ≤ x.floor ∧ x.floor ≤ 5 := by
  unfold WindowFields.window at h
  split at h
  · next m e hm he =>
    split at h
    · next hr => exact ⟨⟨m, hm⟩, ⟨e, he⟩, hr⟩
    · exact absurd h nofun
  · exact absurd h nofun

theorem writeWindow_misfit {x : WindowFields} {s : State} (h : Ix4.ofNum x.slot = none ∨ x.window = none) :
    writeWindow x s = (s, refuse .badField) := by
  unfold writeWindow
  split
  · next hi hw => rcases h with h | h <;> simp [h] at hi hw
  · rfl

theorem declareLevel_misfit {x : DeclareFields} {s : State} (h : Mask.ofByte x.districts = none ∨ 5 < x.level
    ∨ expiryInRange x.untilMinute = false ∨ (x.untilMinute.map s.afterNow).getD true = false) :
    declareLevel x s = (s, refuse .badField) := by
  unfold declareLevel
  split
  · rfl
  · next m hm =>
    split
    · rfl
    · next hin => exact if_pos (by rcases h with h | h | h | h <;> simp_all)

theorem declareLevel_of {x : DeclareFields} {s : State} {m : Mask} (hm : Mask.ofByte x.districts = some m) (hl : x.level ≤ 5)
    (hin : expiryInRange x.untilMinute = true) (hafter : (x.untilMinute.map s.afterNow).getD true = true) :
    declareLevel x s = (s.recalendar (fun c => { c with
      declarations := writeDeclaration m (some ⟨x.level, x.untilMinute⟩) c.declarations }), ok []) := by
  unfold declareLevel
  simp only [hm]
  rw [if_neg (by rw [hin]; simpa using hl), if_neg (by rw [hafter]; nofun)]

theorem EntryFields.entry_some {x : EntryFields} {e : Entry} (h : x.entry = some e) :
    ∃ a, x.action.action = some a ∧ (1 ≤ x.slot ∧ x.slot ≤ 16 ∧ x.recurrence.inRange = true) ∧ e = ⟨x.recurrence, a, repeatOf x.repeats⟩ := by
  unfold EntryFields.entry at h
  split at h
  · next a ha =>
    split at h
    · next hr =>
      cases h
      exact ⟨a, ha, hr, rfl⟩
    · exact absurd h nofun
  · exact absurd h nofun

theorem durationInRange_iff {n : Option Nat} : durationInRange n = true ↔ ∀ x, n = some x → 1 ≤ x ∧ x ≤ 10080 := by
  cases n <;> simp [durationInRange]

theorem ActionFields.action_declare {d l : Nat} {n : Option Nat} {a : Action} (h : (ActionFields.declare d l n).action = some a) :
    (1 ≤ d ∧ d ≤ 3) ∧ l ≤ 5 ∧ ∀ x, n = some x → 1 ≤ x ∧ x ≤ 10080 := by
  unfold ActionFields.action at h
  dsimp only at h
  split at h
  · next m hm =>
    split at h
    · next hr =>
      refine ⟨?_, hr.1, durationInRange_iff.mp hr.2⟩
      refine Classical.byContradiction fun hout => ?_
      have hnone := Mask.ofByte_none (n := d) (by omega)
      exact absurd (hnone.symm.trans hm) nofun
    · exact absurd h nofun
  · exact absurd h nofun

theorem addEntry_misfit {x : EntryFields} {s : State} (h : x.entry = none) : addEntry x s = (s, refuse .badField) := by
  unfold addEntry
  rw [h]

/-- ADD_ENTRY with its fields in range. -/
theorem addEntry_of {x : EntryFields} {s : State} {e : Entry} (h : x.entry = some e) : addEntry x s =
    if (s.cal.schedule.find x.slot).isSome = true then (s, refuse .duplicate)
    else if s.onceAllowed e = false then (s, refuse .badField)
    else (s.putSchedule (s.cal.schedule.put x.slot e), ok []) := by
  unfold addEntry
  simp only [h]

theorem Action.fields_action {a : Action} (hdeclare : ∀ m l d, a = .declare m l d → (m.a = true ∨ m.b = true) ∧ l ≤ 5
    ∧ ∀ x, d = some x → 1 ≤ x ∧ x ≤ 10080) (hlift : ∀ m, a = .lift m → m.a = true ∨ m.b = true) : a.fields.action = some a := by
  cases a with
  | declare m l d =>
    obtain ⟨hm, hl, hd⟩ := hdeclare m l d rfl
    simp only [Action.fields, ActionFields.action, Mask.ofByte_bits hm]
    exact if_pos ⟨hl, durationInRange_iff.mpr hd⟩
  | lift m => simp only [Action.fields, ActionFields.action, Mask.ofByte_bits (hlift m rfl), Option.map_some]

/-- A ONCE entry that is not for a minute to come, or repeats, is not allowed (05 R103 checks 3 and 4). -/
theorem State.onceAllowed_once {s : State} {m : Minute} {a : Action} {n : Option Nat} :
    s.onceAllowed ⟨.once m, a, n⟩ = true ↔ n = some 0 ∧ s.afterNow m = true := by
  simp [State.onceAllowed]

theorem State.onceAllowed_of {s : State} {e : Entry} (h : ∀ m, e.recurrence = .once m → e.repeats = some 0 ∧ s.afterNow m = true) :
    s.onceAllowed e = true := by
  obtain ⟨r, a, n⟩ := e
  cases r with
  | once m => exact State.onceAllowed_once.mpr (h m rfl)
  | _ => rfl

/-- Settles O48. -/
theorem seasonCommandsWrite : Obligations.SeasonCommandsWrite := by
  intro s hport
  refine ⟨fun i w hs he hf1 hf hm => ?_, fun i hi => ?_, fun i hi => ?_, fun m l u hm hl hu => ?_, fun m hm => ?_,
    fun n e hn1 hn hr hdeclare hlift hrep => ?_, fun n hn1 hn => ?_, fun p x hread hbad => ?_, fun b hb => ?_,
    fun p x hread hbad => ?_, fun b hb => ?_, fun p x hread => ?_, fun b hb => ?_, fun c e live hlive => ?_, fun g fs hfs => ?_,
    fun g => ⟨State.settleLevels_cal _, ?_, fun h => State.settleLevels_self h⟩⟩
  · have hw : WindowFields.window ⟨i.num, w.startMonth, w.startDay, w.endMonth, w.endDay, bits [w.districts.a, w.districts.b], w.floor,
        if w.enabled then 0 else 1⟩ = some w := by
      have henabled : onOff (if w.enabled then 0 else 1) = some w.enabled := by cases w.enabled <;> rfl
      simp only [WindowFields.window, Mask.ofByte_bits hm, henabled]
      exact if_pos ⟨hs, he, hf1, hf⟩
    refine serve_answers hport (readWindowFields_layout i hs he hf) ?_
    simp only [writeWindow, Ix4.ofNum_num, hw]
    rfl
  · refine serve_onFeeder i hport ?_
    simp only [clearWindow, Ix4.ofNum_num]
    exact if_neg (by simpa using hi)
  · refine serve_onFeeder i hport ?_
    simp only [clearWindow, Ix4.ofNum_num]
    exact if_pos (by simpa using hi)
  · refine serve_answers hport (readDeclare_layout m hl fun x hx => (hu x hx).1) ((declareLevel_of (Mask.ofByte_bits hm) hl
      (expiryInRange_iff.mpr fun x hx => (hu x hx).1) ?_).trans rfl)
    cases hx : u with
    | none => rfl
    | some x => exact State.afterNow_iff.mpr (hu x hx).2
  · refine serve_answers hport (readByte_byte (byte_small m.bits_le)) ?_
    simp only [liftLevel, Mask.ofByte_bits hm]
    rfl
  · have hread := readEntryFields_layout hn hr (fun m l d ha => ⟨Nat.le_trans (hdeclare m l d ha).2.1 (by decide),
      fun x hx => Nat.le_trans ((hdeclare m l d ha).2.2 x hx).2 (by decide)⟩) hrep
    have hentry : EntryFields.entry ⟨n, e.recurrence, e.action.fields, e.repeats.getD 255⟩ = some e := by
      simp only [EntryFields.entry, Action.fields_action hdeclare hlift]
      rw [if_pos ⟨hn1, hn, hr⟩, repeatOf_getD hrep]
    refine ⟨fun hempty honce => serve_answers hport hread ((addEntry_of hentry).trans ((if_neg ?_).trans ((if_neg ?_).trans rfl))),
      fun hheld => serve_answers hport hread ((addEntry_of hentry).trans (if_pos (Option.isSome_iff_ne_none.mpr hheld)))⟩
    · simp [hempty]
    · have hallowed : s.restartSupervision.onceAllowed e = true :=
        State.onceAllowed_of fun m hm => ⟨(honce m hm).1, State.afterNow_iff.mpr (honce m hm).2⟩
      rw [hallowed]
      nofun
  · cases hx : s.cal.schedule.find n with
    | none => exact serve_answers hport (readByte_byte (byte_small hn)) (by simp [deleteEntry, onEntry, hn1, hn, hx])
    | some e =>
      refine serve_answers hport (readByte_byte (byte_small hn)) ?_
      simp only [deleteEntry, onEntry, hn1, hn, and_self, if_true, State.restartSupervision_cal, hx]
      rfl
  · refine serve_answers hport hread (writeWindow_misfit ?_)
    refine Classical.byContradiction fun hfits => ?_
    obtain ⟨hslot, hwindow⟩ := not_or.mp hfits
    obtain ⟨w, hw⟩ := Option.ne_none_iff_exists'.mp hwindow
    obtain ⟨⟨m, hm⟩, ⟨e, he⟩, hs, hend, hf1, hf⟩ := WindowFields.window_some hw
    have hnum : ¬ (x.slot < 1 ∨ 4 < x.slot) := fun h => hslot (Ix4.ofNum_eq_none.mpr h)
    have hmask : ¬ (x.districts = 0 ∨ 3 < x.districts) := fun h => by simp [Mask.ofByte_none h] at hm
    have henabled : ¬ 1 < x.enabled := fun h => by simp [onOff_none h] at he
    rw [hs, hend] at hbad
    simp only [Bool.true_eq_false, false_or] at hbad
    omega
  · refine serve_answers hport rfl ?_
    have hnone : Ix4.ofNum b.toNat = none := Ix4.ofNum_eq_none.mpr (hb.imp (fun h => by rw [h]; decide) id)
    simp only [clearWindow, hnone]
  · refine serve_answers hport hread (declareLevel_misfit ?_)
    rcases hbad with h | h | h | ⟨m, hm, h | h⟩
    · exact .inl (Mask.ofByte_none (.inl h))
    · exact .inl (Mask.ofByte_none (.inr h))
    · exact .inr (.inl h)
    · rw [hm]
      exact .inr (.inr (.inl h))
    · rw [hm]
      exact .inr (.inr (.inr (State.afterNow_false.mpr h)))
  · refine serve_answers hport rfl ?_
    have hnone : Mask.ofByte b.toNat = none := Mask.ofByte_none (hb.imp (fun h => by rw [h]; decide) id)
    simp only [liftLevel, hnone]
  · refine ⟨fun hbad => serve_answers hport hread (addEntry_misfit ?_), fun m honce hempty hbad => serve_answers hport hread ?_⟩
    · rw [Option.eq_none_iff_forall_ne_some]
      intro e he
      obtain ⟨a, ha, ⟨hslot1, hslot, hr⟩, -⟩ := EntryFields.entry_some he
      rcases hbad with h | h | h | ⟨d, l, n, hact, h⟩ | ⟨d, hact, h⟩
      · omega
      · omega
      · simp [hr] at h
      · rw [hact] at ha
        obtain ⟨hd, hl, hn⟩ := ActionFields.action_declare ha
        rcases h with h | h | h | h | ⟨y, hy, h⟩
        · omega
        · omega
        · omega
        · exact absurd (hn 0 h).1 (by decide)
        · exact absurd (hn y hy).2 (Nat.not_le.mpr h)
      · rw [hact] at ha
        simp [ActionFields.action, Mask.ofByte_none h] at ha
    · cases he : x.entry with
      | none => exact addEntry_misfit he
      | some e =>
        obtain ⟨a, -, -, rfl⟩ := EntryFields.entry_some he
        refine (addEntry_of he).trans ((if_neg (by simp [hempty])).trans (if_pos (Bool.eq_false_iff.mpr fun hallowed => ?_)))
        rw [honce] at hallowed
        obtain ⟨hzero, hafter⟩ := State.onceAllowed_once.mp hallowed
        obtain ⟨c, hc, hlt⟩ := State.afterNow_iff.mp hafter
        rcases hbad with h | h
        · rw [repeatOf] at hzero
          split at hzero
          · exact absurd hzero nofun
          · exact h (Option.some.inj hzero)
        · exact absurd hlt (Nat.not_lt.mpr (h c hc))
  · refine serve_answers hport rfl (onEntry_range fun h => ?_)
    rcases hb with rfl | hb
    · exact absurd h.1 (by decide)
    · omega
  · have hactivity (i : Ix4) : c.activity i = true ↔ live i := Calendar.activity_iff.trans (hlive i).symm
    refine ⟨fun i he => ?_, fun he => ?_⟩ <;> subst he
    · refine ⟨rfl, ?_, fun j hj => Four.get_set_other _ _ hj, Calendar.settleFloors_follow _⟩
      exact (Bool.eq_iff_iff.mp (Four.get_set_self _ i _)).trans (hactivity i)
    · refine ⟨rfl, fun i => ?_, Calendar.settleFloors_follow _⟩
      exact (Bool.eq_iff_iff.mp (Four.get_build _ i)).trans (hactivity i)
  · rw [State.recalendar, State.settleLevels_eq, hfs]
    simp only [State.district_eq]
    rfl
  · rw [State.recalendar, State.settleLevels_cal]
    exact Calendar.settleLevels_follow _

end Sys2Proof.Machine

/-! SET_CALENDAR and SET_TRIM (O47), and the tags that a minute expires. -/

namespace Sys2Proof.Machine

/-! ## Tags that expire (04 R80) -/

/-- The TAG_EXPIRED notice of a feeder, of the last of its tags that are gone. -/
def Attention.tellExpired (gone : List Tag) (a : Attention) (f : Feeder) : Attention :=
  match (gone.filter (fun x => decide (x.feeder = f))).getLast? with
  | some x => a.give (.feeder f) (.tagExpired x.number x.holder)
  | none => a

/-- The feeders that lose a tag. -/
def losers (gone : List Tag) : List Feeder := Ix4.all.filter (fun f => gone.any (fun x => decide (x.feeder = f)))

theorem foldl_expiryNotice (gone : List Tag) (fs : List Feeder) (s : State) :
    fs.foldl (State.expiryNotice gone) s = { s with att := fs.foldl (Attention.tellExpired gone) s.att } := by
  induction fs generalizing s with
  | nil => rfl
  | cons f rest ih =>
    have hone : State.expiryNotice gone s f = { s with att := s.att.tellExpired gone f } := by
      unfold State.expiryNotice Attention.tellExpired
      cases (gone.filter (fun x => decide (x.feeder = f))).getLast? <;> rfl
    rw [List.foldl_cons, List.foldl_cons, ih, hone]

theorem State.expireTags_eq {s : State} {m : Minute} {gone : List Tag} (hgone : gone = s.tags.filter (Tag.expired m)) :
    s.expireTags m = ({ s with
      tags := s.tags.filter (fun x => !x.expired m)
      att := (losers gone).foldl (Attention.tellExpired gone) s.att }, losers gone) := by
  subst hgone
  unfold State.expireTags
  dsimp only
  rw [foldl_expiryNotice]
  rfl

theorem State.expireAndTell_eq {s : State} {m : Minute} {gone : List Tag} (hgone : gone = s.tags.filter (Tag.expired m)) :
    s.expireAndTell m = State.deriveMany { s with
      tags := s.tags.filter (fun x => !x.expired m)
      att := (losers gone).foldl (Attention.tellExpired gone) s.att } (losers gone) := by
  rw [State.expireAndTell, State.expireTags_eq hgone]

/-- A tag that a minute leaves. -/
theorem Tag.not_expired (x : Tag) (m : Minute) : (!x.expired m) = (x.frozen || match x.expiry with
    | some e => decide (m.rank < e.rank)
    | none => true) := by
  unfold Tag.expired
  cases x.frozen with
  | true => rfl
  | false =>
    cases x.expiry with
    | none => rfl
    | some e => simp [Minute.le, ← decide_not]

/-! ## What a calendar command leaves -/

theorem State.expireAndTell_cal (s : State) (m : Minute) : (s.expireAndTell m).cal = s.cal := by
  rw [State.expireAndTell_eq rfl, State.deriveMany_cal]

theorem State.deriveMany_tags (fs : List Feeder) (s : State) : (s.deriveMany fs).tags = s.tags :=
  State.deriveMany_same (fun f s => (s.derive_touches f).tags) fs s

theorem State.deriveMany_store (fs : List Feeder) (s : State) : (s.deriveMany fs).store = s.store :=
  State.deriveMany_same (fun f s => (s.derive_touches f).store) fs s

theorem State.deriveMany_inputs (fs : List Feeder) (s : State) : (s.deriveMany fs).inputs = s.inputs :=
  State.deriveMany_same (fun f s => (s.derive_touches f).inputs) fs s

theorem State.deriveMany_latch (fs : List Feeder) (s : State) : (s.deriveMany fs).latch = s.latch :=
  State.deriveMany_same (fun f s => (s.derive_touches f).latch) fs s

theorem State.deriveMany_sections (fs : List Feeder) (s : State) : (s.deriveMany fs).sections = s.sections :=
  State.deriveMany_same (fun f s => (s.derive_touches f).sections) fs s

theorem State.deriveMany_sample (fs : List Feeder) (s : State) : (s.deriveMany fs).sample = s.sample :=
  State.deriveMany_same (fun f s => (s.derive_touches f).sample) fs s

theorem State.deriveMany_engine (fs : List Feeder) (s : State) : (s.deriveMany fs).engine = s.engine :=
  State.deriveMany_same (fun f s => (s.derive_touches f).engine) fs s

/-- The blocks that neither a derivation nor a calendar command writes. -/
def State.sameInputs (s t : State) : Prop := t.store = s.store ∧ t.inputs = s.inputs ∧ t.latch = s.latch ∧ t.sections = s.sections
  ∧ t.sample = s.sample ∧ t.engine = s.engine

theorem State.deriveMany_sameInputs (fs : List Feeder) (s : State) : s.sameInputs (s.deriveMany fs) :=
  ⟨s.deriveMany_store fs, s.deriveMany_inputs fs, s.deriveMany_latch fs, s.deriveMany_sections fs, s.deriveMany_sample fs,
    s.deriveMany_engine fs⟩

theorem State.sameInputs.trans {s t u : State} : s.sameInputs t → t.sameInputs u → s.sameInputs u
  | ⟨hstore, hinputs, hlatch, hsections, hsample, hengine⟩, ⟨kstore, kinputs, klatch, ksections, ksample, kengine⟩ =>
    ⟨kstore.trans hstore, kinputs.trans hinputs, klatch.trans hlatch, ksections.trans hsections, ksample.trans hsample,
      kengine.trans hengine⟩

theorem State.deriveMany_district (fs : List Feeder) (s : State) (f : Feeder) : (s.deriveMany fs).district f = s.district f := by
  unfold State.district State.constants
  rw [State.deriveMany_store]

/-! ## SET_CALENDAR (O47) -/

/-- What a set makes of the calendar, its levels not yet derived (05 R93). -/
def Calendar.setTo (c : Calendar) (k : Clock) : Calendar :=
  Calendar.retireOnce (Calendar.expireDeclarations
    (Calendar.evaluateAll { c with clock := some k, prescaler := 0, secondLength := plainSecond }) k.minute false ⟨false, false⟩) k.minute

/-- A state whose feeders that lost a tag have been told. -/
def State.tagsExpired (s : State) (c : Calendar) (m : Minute) : State :=
  State.deriveMany { s with
    cal := c
    tags := s.tags.filter (fun x => !x.expired m)
    att := (losers (s.tags.filter (Tag.expired m))).foldl (Attention.tellExpired (s.tags.filter (Tag.expired m))) s.att }
    (losers (s.tags.filter (Tag.expired m)))

/-- The feeders of the districts whose levels a calendar moves. -/
def State.movedFeeders (s : State) (c : Calendar) : List Feeder :=
  Ix4.all.filter (fun f => decide (c.levelOf (s.district f) ≠ c.levels.get (s.district f)))

theorem State.setClock_eq (s : State) (k : Clock) : s.setClock k =
    (if s.cal.clock.isNone then
      (State.deriveMany { s.tagsExpired (s.cal.setTo k) k.minute with cal := (s.cal.setTo k).settleLevels }
        (s.movedFeeders (s.cal.setTo k))).deriveMany Ix4.all
    else State.deriveMany { s.tagsExpired (s.cal.setTo k) k.minute with cal := (s.cal.setTo k).settleLevels }
      (s.movedFeeders (s.cal.setTo k))) := by
  have htags : State.expireAndTell { s with cal := s.cal.setTo k } k.minute = s.tagsExpired (s.cal.setTo k) k.minute :=
    State.expireAndTell_eq rfl
  have hcal : (s.tagsExpired (s.cal.setTo k) k.minute).cal = s.cal.setTo k := State.deriveMany_cal _ _
  have hdistrict (f : Feeder) : (s.tagsExpired (s.cal.setTo k) k.minute).district f = s.district f := State.deriveMany_district _ _ _
  have hlevels : (s.tagsExpired (s.cal.setTo k) k.minute).settleLevels =
      State.deriveMany { s.tagsExpired (s.cal.setTo k) k.minute with cal := (s.cal.setTo k).settleLevels }
        (s.movedFeeders (s.cal.setTo k)) := by
    rw [State.settleLevels_eq, hcal]
    simp only [hdistrict]
    rfl
  rw [← hlevels, ← htags]
  rfl

theorem Calendar.setTo_declarations (c : Calendar) (k : Clock) (d : District) : (c.setTo k).declarations.get d =
    clearReached k.minute (c.declarations.get d) := by cases d <;> rfl

theorem clearReached_eq (m : Minute) (x : Option Declaration) : clearReached m x = match x with
    | some ⟨l, some u⟩ => if u.rank ≤ m.rank then none else some ⟨l, some u⟩
    | x => x := by
  rcases x with - | ⟨l, - | u⟩
  · rfl
  · rfl
  · simp [clearReached, Minute.le]

theorem trimOfByte_toNat (b : Byte) : trimOfByte b.toNat = b.toInt := by
  rw [BitVec.toInt_eq_toNat_cond, trimOfByte]
  have := b.isLt
  split <;> split <;> omega

theorem readClock_layout {k : Clock} (h : k.real = true) : readClock (minuteBytes k.minute ++ [byte k.second, byte k.weekday]) = some k := by
  simp only [Clock.real, Bool.and_eq_true, decide_eq_true_eq] at h
  obtain ⟨hm, hs, hw⟩ := h
  simp [readClock, readMinute_minuteBytes hm, read1_byte (n := k.second) (by omega), read1_byte (n := k.weekday) (by omega), whole]

theorem State.tagsExpired_keeps (s : State) (c : Calendar) (m : Minute) :
    (s.tagsExpired c m).tags = s.tags.filter (fun x => !x.expired m) ∧ s.sameInputs (s.tagsExpired c m) :=
  ⟨State.deriveMany_tags _ _, State.deriveMany_sameInputs _ _⟩

theorem State.setClock_cal (s : State) (k : Clock) : (s.setClock k).cal = (s.cal.setTo k).settleLevels := by
  rw [State.setClock_eq]
  split
  · rw [State.deriveMany_cal, State.deriveMany_cal]
  · rw [State.deriveMany_cal]

theorem State.setClock_keeps (s : State) (k : Clock) :
    (s.setClock k).tags = s.tags.filter (fun x => !x.expired k.minute) ∧ s.sameInputs (s.setClock k) := by
  obtain ⟨htags, hinputs⟩ := s.tagsExpired_keeps (s.cal.setTo k) k.minute
  have hmoved : s.sameInputs (State.deriveMany { s.tagsExpired (s.cal.setTo k) k.minute with cal := (s.cal.setTo k).settleLevels }
      (s.movedFeeders (s.cal.setTo k))) := hinputs.trans (State.deriveMany_sameInputs _ _)
  rw [State.setClock_eq]
  split
  · refine ⟨?_, hmoved.trans (State.deriveMany_sameInputs _ _)⟩
    rw [State.deriveMany_tags, State.deriveMany_tags]
    exact htags
  · refine ⟨?_, hmoved⟩
    rw [State.deriveMany_tags]
    exact htags

/-- Settles O47. -/
theorem calendarIsSet : Obligations.CalendarIsSet := by
  refine ⟨fun s k hport hreal => ?_, fun s p k hport hread hreal => serve_answers hport hread (if_neg (by rw [hreal]; nofun)),
    fun s b hport => ⟨fun hin => serve_answers hport rfl ?_, fun hlow hhigh => serve_answers hport rfl (if_neg ?_)⟩⟩
  · obtain ⟨htags, hstore, hinputs, hlatch, hsections, hsample, hengine⟩ := s.restartSupervision.setClock_keeps k
    obtain ⟨t, ht⟩ : ∃ t, t = (s.restartSupervision.setClock k).answer 26#8 (ok []) := ⟨_, rfl⟩
    have hcal : t.cal = (s.cal.setTo k).settleLevels := by
      rw [ht]
      exact State.setClock_cal _ _
    have htagsLeft : t.tags = s.tags.filter (fun x => !x.expired k.minute) := by
      rw [ht]
      exact htags
    refine ⟨t, ?_, by rw [ht]; rfl, by rw [hcal]; rfl, by rw [hcal]; rfl, by rw [hcal]; rfl, by rw [hcal]; rfl, by rw [hcal]; rfl,
      fun i => ?_, ?_, ?_, fun d => ?_, ?_, ?_, by rw [ht]; exact hstore, by rw [ht]; exact hinputs, by rw [ht]; exact hlatch,
      by rw [ht]; exact hsections, by rw [ht]; exact hsample, by rw [ht]; exact hengine, ?_⟩
    · rw [ht]
      exact serve_answers hport (readClock_layout hreal) (if_pos hreal)
    · rw [hcal]
      refine (Four.get_build _ i).trans ((Calendar.activity_set rfl i).trans ?_)
      rfl
    · rw [hcal]
      exact floorsFollow.of_eq (Calendar.settleFloors_follow _) rfl rfl rfl
    · rw [hcal]
      exact Calendar.settleLevels_follow _
    · rw [hcal]
      exact (Calendar.setTo_declarations s.cal k d).trans (clearReached_eq ..)
    · rw [hcal]
      refine List.filter_congr fun p _ => ?_
      cases p.2.recurrence with
      | once m => simp [Minute.le, ← decide_not]
      | _ => rfl
    · rw [htagsLeft]
      exact List.filter_congr fun x _ => x.not_expired k.minute
    · rintro gone losing moved u v hgone hlosing hmoved hu hv
      have hlevels (d : District) : t.cal.levels.get d = (s.cal.setTo k).levelOf d := by
        rw [hcal]
        exact Calendar.settleLevels_get _ d
      have hu' : u = s.restartSupervision.tagsExpired (s.cal.setTo k) k.minute := by
        rw [hu, hlosing, hgone, hcal, htagsLeft]
        rfl
      have hmoved' : moved = s.restartSupervision.movedFeeders (s.cal.setTo k) := by
        rw [hmoved]
        refine List.filter_congr fun f _ => ?_
        simp only [hlevels]
        rw [State.district_eq]
        rfl
      rw [ht, State.setClock_eq, hv, hu', hmoved', hcal]
      refine congrArg (State.answer · 26#8 (ok [])) (ite_of_iff Option.isNone_iff_eq_none rfl rfl)
  · refine (if_pos ?_).trans ?_
    · unfold trimOfByte
      split <;> omega
    · rw [trimOfByte_toNat]
      rfl
  · unfold trimOfByte
    split <;> omega

end Sys2Proof.Machine

/-! The minute change and its four takers (O49). -/

namespace Sys2Proof.Machine

/-! ## Orders of the takers (05 R91) -/

theorem nodup_eraseDups {α : Type} [DecidableEq α] (l : List α) : l.eraseDups.Nodup := by
  induction h : l.length using Nat.strongRecOn generalizing l with
  | _ n ih =>
    cases l with
    | nil => exact List.nodup_nil
    | cons a rest =>
      rw [List.eraseDups_cons, List.nodup_cons, List.mem_eraseDups]
      refine ⟨by simp, ih _ ?_ _ rfl⟩
      exact h ▸ Nat.lt_succ_of_le (List.length_filter_le _ _)

theorem eraseDups_self {α : Type} [DecidableEq α] {l : List α} (h : l.Nodup) : l.eraseDups = l := by
  induction l with
  | nil => rfl
  | cons a rest ih =>
    obtain ⟨ha, hrest⟩ := List.nodup_cons.mp h
    have hkeep : rest.filter (fun b => !b == a) = rest :=
      List.filter_eq_self.mpr fun b hb => by simpa using ne_of_mem_of_not_mem hb ha
    rw [List.eraseDups_cons, hkeep, ih hrest]

theorem MinuteTaker.mem_all (x : MinuteTaker) : x ∈ MinuteTaker.all := by cases x <;> decide

/-- The twenty-four orders of the takers. -/
def MinuteTaker.orders : List (List MinuteTaker) :=
  MinuteTaker.all.flatMap fun a => (MinuteTaker.all.filter (· ≠ a)).flatMap fun b =>
    (MinuteTaker.all.filter fun c => c ≠ a ∧ c ≠ b).flatMap fun c =>
      (MinuteTaker.all.filter fun d => d ≠ a ∧ d ≠ b ∧ d ≠ c).map fun d => [a, b, c, d]

/-- Four takers, each once, are an order of the four. -/
theorem order_of_four {o : List MinuteTaker} (hn : o.Nodup) (h4 : o.length = 4) : o ∈ MinuteTaker.orders := by
  match o, h4 with
  | [a, b, c, d], _ =>
    simp only [List.nodup_cons, List.mem_cons, List.not_mem_nil, or_false, not_or] at hn
    obtain ⟨⟨hab, hac, had⟩, ⟨hbc, hbd⟩, hcd, -⟩ := hn
    refine List.mem_flatMap.mpr ⟨a, a.mem_all, List.mem_flatMap.mpr ⟨b, ?_, List.mem_flatMap.mpr ⟨c, ?_, List.mem_map.mpr ⟨d, ?_, rfl⟩⟩⟩⟩
    · exact List.mem_filter.mpr ⟨b.mem_all, decide_eq_true (Ne.symm hab)⟩
    · exact List.mem_filter.mpr ⟨c.mem_all, decide_eq_true ⟨Ne.symm hac, Ne.symm hbc⟩⟩
    · exact List.mem_filter.mpr ⟨d.mem_all, decide_eq_true ⟨Ne.symm had, Ne.symm hbd, Ne.symm hcd⟩⟩

theorem order_of_mem {o : List MinuteTaker} (hn : o.Nodup) (hall : ∀ x, x ∈ o) : o ∈ MinuteTaker.orders :=
  order_of_four hn
    ((List.perm_ext_iff_of_nodup hn (by decide)).mpr fun x => iff_of_true (hall x) x.mem_all : o.Perm MinuteTaker.all).length_eq

theorem mem_order {o : List MinuteTaker} (ho : o ∈ MinuteTaker.orders) (x : MinuteTaker) : x ∈ o := by
  revert o
  cases x <;> decide

theorem wholeOrder_nodup (o : List MinuteTaker) : (wholeOrder o).Nodup := nodup_eraseDups _

theorem mem_wholeOrder (o : List MinuteTaker) (x : MinuteTaker) : x ∈ wholeOrder o :=
  List.mem_eraseDups.mpr (List.mem_append_right o x.mem_all)

theorem wholeOrder_self {o : List MinuteTaker} (hn : o.Nodup) (h4 : o.length = 4) : wholeOrder o = o := by
  have hmem := mem_order (order_of_four hn h4)
  have hnone : MinuteTaker.all.removeAll o = [] := List.filter_eq_nil_iff.mpr fun x _ => by simp [hmem x]
  rw [wholeOrder, List.eraseDups_append, eraseDups_self hn, hnone]
  exact List.append_nil o

/-- Which of the two that write declarations comes first. -/
theorem writers_of_order {o : List MinuteTaker} (ho : o ∈ MinuteTaker.orders) :
    o.filter (fun x => decide (x = .schedule ∨ x = .declarations)) =
      if scheduleFirst o then [.schedule, .declarations] else [.declarations, .schedule] := by
  revert o
  decide

theorem scheduleFirst_eq {o : List MinuteTaker} (ho : o ∈ MinuteTaker.orders) :
    scheduleFirst o = decide (o.idxOf .schedule < o.idxOf .declarations) := by
  revert o
  decide

theorem tags_of_order {o : List MinuteTaker} (ho : o ∈ MinuteTaker.orders) :
    o.filter (fun x => decide (x = .tags)) = [.tags] := by
  revert o
  decide

/-! ## Folds over the takers -/

section
variable {α β γ : Type} {f : α → β → α}

theorem foldl_keeps {P : α → γ} (h : ∀ a x, P (f a x) = P a) (l : List β) (a : α) : P (l.foldl f a) = P a := by
  induction l generalizing a with
  | nil => rfl
  | cons x rest ih => exact (ih _).trans (h a x)

/-- What one of a list establishes and the others keep holds at the end. -/
theorem foldl_establishes {Q : α → Prop} {x : β} (hset : ∀ a, Q (f a x)) (hkeep : ∀ a y, Q a → Q (f a y)) {l : List β}
    (hx : x ∈ l) (a : α) : Q (l.foldl f a) := by
  have hall (l : List β) (a : α) (ha : Q a) : Q (l.foldl f a) := by
    induction l generalizing a with
    | nil => exact ha
    | cons y rest ih => exact ih _ (hkeep a y ha)
  obtain ⟨before, after, rfl⟩ := List.append_of_mem hx
  rw [List.foldl_append, List.foldl_cons]
  exact hall after _ (hset _)

/-- A part of the state that only some of the list write. -/
theorem foldl_writers {P : α → γ} {g : γ → β → γ} {p : β → Bool} (hp : ∀ a x, p x = true → P (f a x) = g (P a) x)
    (hother : ∀ a x, p x = false → P (f a x) = P a) (l : List β) (a : α) : P (l.foldl f a) = (l.filter p).foldl g (P a) := by
  rw [List.foldl_filter]
  refine (List.foldl_hom P fun a x => ?_).symm
  cases hx : p x with
  | true => exact (hp a x hx).symm
  | false => exact (hother a x hx).symm

end

/-! ## The schedule (05 R104 to R106) -/

/-- What the firing of an entry leaves of it. -/
theorem fire_schedule (c : Calendar) (k : Clock) (p : Pair (Option Declaration)) :
    (fire k.minute k.weekday c.schedule p).1 = firedSchedule c k := by
  unfold firedSchedule
  generalize c.schedule = t
  induction t generalizing p with
  | nil => rfl
  | cons x rest ih =>
    obtain ⟨n, e⟩ := x
    unfold fire
    rw [List.filterMap_cons]
    dsimp only
    by_cases hfit : e.recurrence.fits k.minute k.weekday = true
    · rw [if_pos hfit, if_pos hfit]
      unfold Entry.fired
      rcases e with ⟨r, a, - | - | m⟩ <;> simp [ih]
    · rw [if_neg hfit, if_neg hfit]
      simp [ih]

/-- An entry acts on a district. -/
def Entry.names (e : Entry) (d : District) : Bool := match e.action with
  | .declare m _ _ => m.has d
  | .lift m => m.has d

theorem Action.has_districts (e : Entry) (d : District) : e.action.districts.has d = e.names d := by
  unfold Entry.names
  cases e.action <;> rfl

/-- What an entry gives a slot. -/
def Entry.gives (e : Entry) (m : Minute) : Option Declaration := match e.action with
  | .declare _ l n => some ⟨l, n.map (addMinutes m)⟩
  | .lift _ => none

theorem Action.act_get (e : Entry) (m : Minute) (p : Pair (Option Declaration)) (d : District) :
    (e.action.act m p).get d = if e.names d then e.gives m else p.get d := by
  unfold Entry.names Entry.gives
  cases e.action <;> cases d <;> rfl

/-- The entries that fire on a district at a minute, in slot order. -/
def firing (t : Table Entry) (k : Clock) (d : District) : Table Entry :=
  t.filter (fun p => p.2.recurrence.fits k.minute k.weekday && p.2.names d)

/-- Of values given one after another the last stays. -/
theorem foldl_last {α β : Type} (g : α → β) (l : List α) (b : β) : l.foldl (fun _ x => g x) b = (l.getLast?.map g).getD b := by
  induction l generalizing b with
  | nil => rfl
  | cons x rest ih =>
    rw [List.foldl_cons, ih, List.getLast?_cons]
    cases rest.getLast? <;> rfl

theorem fire_get (k : Clock) (t : Table Entry) (p : Pair (Option Declaration)) (d : District) :
    (fire k.minute k.weekday t p).2.get d = (firing t k d).foldl (fun _ x => x.2.gives k.minute) (p.get d) := by
  induction t generalizing p with
  | nil => rfl
  | cons x rest ih =>
    obtain ⟨n, e⟩ := x
    unfold fire firing
    rw [List.filter_cons]
    dsimp only
    by_cases hfit : e.recurrence.fits k.minute k.weekday = true
    · have hfired : (if e.recurrence.fits k.minute k.weekday = true then
            let r := fire k.minute k.weekday rest (e.action.act k.minute p)
            match e.fired with
            | some e => ((n, e) :: r.1, r.2)
            | none => r
          else
            let r := fire k.minute k.weekday rest p
            ((n, e) :: r.1, r.2)).2 = (fire k.minute k.weekday rest (e.action.act k.minute p)).2 := by
        rw [if_pos hfit]
        cases e.fired <;> rfl
      refine (congrArg (Pair.get · d) hfired).trans ?_
      rw [ih, Action.act_get, hfit, Bool.true_and]
      cases e.names d <;> rfl
    · rw [if_neg hfit, Bool.eq_false_iff.mpr hfit]
      exact ih p

theorem firedSlot_eq (c : Calendar) (k : Clock) (d : District) :
    firedSlot c k d = (firing c.schedule k d).foldl (fun _ x => x.2.gives k.minute) (c.declarations.get d) := by
  have hfiring : firedSlot c k d = match (firing c.schedule k d).getLast? with
      | some (_, ⟨_, .declare _ l n, _⟩) => some ⟨l, n.map (addMinutes k.minute)⟩
      | some (_, ⟨_, .lift _, _⟩) => none
      | none => c.declarations.get d := rfl
  rw [foldl_last, hfiring]
  rcases (firing c.schedule k d).getLast? with - | ⟨-, -, - | -, -⟩ <;> rfl

theorem Calendar.fires_iff (c : Calendar) (k : Clock) (d : District) : c.fires k d = false ↔ firing c.schedule k d = [] := by
  simp [Calendar.fires, firing, Action.has_districts]

theorem unreached_eq (now : Minute) (wrap keep : Bool) (y : Option Declaration) :
    (if keep then y else if wrap then clearTimed y else clearReached now y) = unreached now wrap keep y := by
  rcases y with - | ⟨l, - | u⟩ <;> cases keep <;> cases wrap <;> simp [unreached, clearTimed, clearReached, Minute.le]

/-! ## The calendar under a minute change -/

/-- What a taker makes of the calendar. -/
def Calendar.takeMinute (k : Clock) (d : Carry) (kept : Mask) (c : Calendar) : MinuteTaker → Calendar
  | .tags => c
  | .declarations => (c.expireDeclarations k.minute d.yearWrap kept).settleLevels
  | .schedule => (c.fire k).settleLevels
  | .windows => if d.dateChange ∨ d.yearWrap then c.evaluateAll.settleLevels else c

theorem State.takeMinute_cal (k : Clock) (d : Carry) (kept : Mask) (s : State) (x : MinuteTaker) :
    (s.takeMinute k d kept x).cal = s.cal.takeMinute k d kept x := by
  cases x with
  | tags => exact s.expireAndTell_cal k.minute
  | declarations => exact State.settleLevels_cal _
  | schedule => exact State.settleLevels_cal _
  | windows =>
    unfold State.takeMinute Calendar.takeMinute
    dsimp only
    split
    · exact State.settleLevels_cal _
    · rfl

theorem State.minuteChange_cal (s : State) (k : Clock) (d : Carry) (o : List MinuteTaker) :
    (s.minuteChange k d o).cal = o.foldl (Calendar.takeMinute k d (s.cal.kept k o)) s.cal :=
  (List.foldl_hom State.cal fun s x => (s.takeMinute_cal k d _ x).symm).symm

section
variable (k : Clock) (d : Carry) (kept : Mask) (c : Calendar)

/-- The fields of the calendar that no taker sets. -/
def Calendar.fixed (c : Calendar) : Option Clock × Nat × Nat × Int × Four (Option Window) :=
  (c.clock, c.prescaler, c.secondLength, c.trim, c.windows)

theorem Calendar.takeMinute_fixed (x : MinuteTaker) : (c.takeMinute k d kept x).fixed = c.fixed := by
  cases x with
  | windows =>
    unfold Calendar.takeMinute
    dsimp only
    split <;> rfl
  | _ => rfl

theorem Calendar.takeMinute_levels {x : MinuteTaker} (h : levelsFollow c) : levelsFollow (c.takeMinute k d kept x) := by
  cases x with
  | tags => exact h
  | declarations => exact Calendar.settleLevels_follow _
  | schedule => exact Calendar.settleLevels_follow _
  | windows =>
    unfold Calendar.takeMinute
    dsimp only
    split
    · exact Calendar.settleLevels_follow _
    · exact h

/-- Only the windows move the floors. -/
theorem Calendar.takeMinute_floors {x : MinuteTaker} (h : x ≠ .windows ∨ (d.dateChange = false ∧ d.yearWrap = false)) :
    (c.takeMinute k d kept x).active = c.active ∧ (c.takeMinute k d kept x).floors = c.floors := by
  cases x with
  | windows =>
    obtain ⟨hdate, hwrap⟩ := h.resolve_left (absurd rfl)
    unfold Calendar.takeMinute
    simp [hdate, hwrap]
  | _ => exact ⟨rfl, rfl⟩

/-- Only the schedule and the declarations write the schedule and the slots. -/
theorem Calendar.takeMinute_slots {x : MinuteTaker} (h : ¬ (x = .schedule ∨ x = .declarations)) :
    (c.takeMinute k d kept x).schedule = c.schedule ∧ (c.takeMinute k d kept x).declarations = c.declarations := by
  cases x with
  | tags => exact ⟨rfl, rfl⟩
  | declarations => exact absurd (.inr rfl) h
  | schedule => exact absurd (.inl rfl) h
  | windows =>
    unfold Calendar.takeMinute
    dsimp only
    split <;> exact ⟨rfl, rfl⟩

end

/-- What the two that write slots make of the schedule and the slots. -/
def writeSlots (k : Clock) (d : Carry) (kept : Mask) (q : Table Entry × Pair (Option Declaration)) :
    MinuteTaker → Table Entry × Pair (Option Declaration)
  | .schedule => fire k.minute k.weekday q.1 q.2
  | _ => (q.1, ⟨unreached k.minute d.yearWrap kept.a q.2.a, unreached k.minute d.yearWrap kept.b q.2.b⟩)

theorem expireDeclarations_slots (c : Calendar) (now : Minute) (wrap : Bool) (kept : Mask) :
    (c.expireDeclarations now wrap kept).declarations =
      ⟨unreached now wrap kept.a c.declarations.a, unreached now wrap kept.b c.declarations.b⟩ := by
  rw [← unreached_eq, ← unreached_eq]
  rfl

theorem Calendar.foldl_slots (k : Clock) (d : Carry) (kept : Mask) {o : List MinuteTaker} (ho : o ∈ MinuteTaker.orders)
    (c : Calendar) : ((o.foldl (Calendar.takeMinute k d kept) c).schedule, (o.foldl (Calendar.takeMinute k d kept) c).declarations) =
      (if scheduleFirst o then [MinuteTaker.schedule, .declarations] else [.declarations, .schedule]).foldl (writeSlots k d kept)
        (c.schedule, c.declarations) := by
  rw [← writers_of_order ho]
  refine foldl_writers (P := fun c : Calendar => (c.schedule, c.declarations)) (fun c x hx => ?_) (fun c x hx => ?_) o c
  · rcases of_decide_eq_true hx with rfl | rfl
    · rfl
    · exact congrArg (Prod.mk c.schedule) (expireDeclarations_slots ..)
  · obtain ⟨hschedule, hslots⟩ := c.takeMinute_slots k d kept (of_decide_eq_false hx)
    rw [hschedule, hslots]

/-- The calendar whose slots that nothing keeps have been cleared. -/
def Calendar.unkept (c : Calendar) (k : Clock) (d : Carry) : Calendar := { c with
  declarations := ⟨Sys2Proof.unreached k.minute d.yearWrap false c.declarations.a,
    Sys2Proof.unreached k.minute d.yearWrap false c.declarations.b⟩ }

/-- A slot that the schedule has written keeps what it was given. -/
theorem unreached_fired (c : Calendar) (k : Clock) (wrap : Bool) (x : District) (y : Option Declaration) :
    unreached k.minute wrap (c.fires k x) ((firing c.schedule k x).foldl (fun _ p => p.2.gives k.minute) y) =
      (firing c.schedule k x).foldl (fun _ p => p.2.gives k.minute) (unreached k.minute wrap false y) := by
  cases hfires : c.fires k x with
  | false => rw [c.fires_iff k x |>.mp hfires, List.foldl_nil, List.foldl_nil]
  | true =>
    have hfiring : firing c.schedule k x ≠ [] := fun h => by simp [(c.fires_iff k x).mpr h] at hfires
    obtain ⟨p, hp⟩ : ∃ p, (firing c.schedule k x).getLast? = some p := ⟨_, List.getLast?_eq_some_getLast hfiring⟩
    rw [foldl_last, foldl_last, hp, ← unreached_eq]
    rfl

/-- The schedule and the slots at the end of a minute change, in whatever order (05 R100, R105). -/
theorem Calendar.minuteChange_slots (c : Calendar) (k : Clock) (d : Carry) {o : List MinuteTaker}
    (ho : o ∈ MinuteTaker.orders) :
    (o.foldl (Calendar.takeMinute k d (c.kept k o)) c).schedule = firedSchedule c k
      ∧ ∀ x, (o.foldl (Calendar.takeMinute k d (c.kept k o)) c).declarations.get x = firedSlot (c.unkept k d) k x := by
  have hfold := c.foldl_slots k d (c.kept k o) ho
  have hslot (x : District) : firedSlot (c.unkept k d) k x = (firing c.schedule k x).foldl (fun _ p => p.2.gives k.minute)
      (unreached k.minute d.yearWrap false (c.declarations.get x)) := by
    rw [firedSlot_eq]
    cases x <;> rfl
  unfold Calendar.kept at hfold ⊢
  cases hfirst : scheduleFirst o with
  | true =>
    simp only [hfirst] at hfold
    obtain ⟨hschedule, hslots⟩ := Prod.mk.inj hfold
    refine ⟨hschedule.trans (fire_schedule c k _), fun x => ?_⟩
    rw [hslots, hslot, ← unreached_fired, ← fire_get]
    cases x <;> rfl
  | false =>
    simp only [hfirst] at hfold
    obtain ⟨hschedule, hslots⟩ := Prod.mk.inj hfold
    refine ⟨hschedule.trans (fire_schedule c k _), fun x => ?_⟩
    rw [hslots, hslot]
    refine (fire_get ..).trans ?_
    cases x <;> rfl

/-- The windows as a date change finds them (05 R96). -/
def Calendar.evaluated (c : Calendar) (k : Clock) (w : Four (Option Window)) : Prop :=
  c.clock = some k → c.windows = w → floorsFollow c ∧ ∀ i, c.active.get i = match w.get i with
    | some w => w.enabled && w.covers k.minute.year k.minute.month k.minute.day
    | none => false

theorem Calendar.takeMinute_evaluates {k : Clock} {d : Carry} (hd : d.dateChange = true ∨ d.yearWrap = true) (kept : Mask) (c : Calendar)
    (w : Four (Option Window)) : (c.takeMinute k d kept .windows).evaluated k w := by
  rw [Calendar.takeMinute, if_pos hd]
  rintro hk rfl
  refine ⟨floorsFollow.of_eq (Calendar.settleFloors_follow { c with active := Four.build c.activity }) rfl rfl rfl, fun i => ?_⟩
  exact (Four.get_build _ i).trans (Calendar.activity_set hk i)

theorem Calendar.takeMinute_evaluated {k : Clock} {d : Carry} (hd : d.dateChange = true ∨ d.yearWrap = true) (kept : Mask) (c : Calendar)
    (w : Four (Option Window)) (x : MinuteTaker) (h : c.evaluated k w) : (c.takeMinute k d kept x).evaluated k w := by
  by_cases hx : x = .windows
  · rw [hx]
    exact c.takeMinute_evaluates hd kept w
  · obtain ⟨hactive, hfloors⟩ := c.takeMinute_floors k d kept (.inl hx)
    have hfixed := c.takeMinute_fixed k d kept x
    intro hk hw
    obtain ⟨hc, hi⟩ := h ((congrArg (·.1) hfixed).symm.trans hk) ((congrArg (·.2.2.2.2) hfixed).symm.trans hw)
    exact ⟨floorsFollow.of_eq hc (congrArg (·.2.2.2.2) hfixed) hactive hfloors, fun i => hactive ▸ hi i⟩

/-! ## The part under a minute change -/

theorem State.recalendar_keeps (s : State) (g : Calendar → Calendar) :
    (s.recalendar g).tags = s.tags ∧ s.sameInputs (s.recalendar g) := by
  unfold State.recalendar
  rw [State.settleLevels_eq]
  exact ⟨State.deriveMany_tags _ _, State.deriveMany_sameInputs _ _⟩

theorem State.takeMinute_tags (k : Clock) (d : Carry) (kept : Mask) (s : State) (x : MinuteTaker) :
    (s.takeMinute k d kept x).tags = if x = .tags then s.tags.filter (fun x => !x.expired k.minute) else s.tags := by
  cases x with
  | tags =>
    refine Eq.trans ?_ (if_pos rfl).symm
    unfold State.takeMinute
    dsimp only
    rw [State.expireAndTell_eq rfl, State.deriveMany_tags]
  | declarations => exact (s.recalendar_keeps _).1
  | schedule => exact (s.recalendar_keeps _).1
  | windows =>
    unfold State.takeMinute
    dsimp only
    split
    · exact (s.recalendar_keeps _).1
    · rfl

theorem State.takeMinute_sameInputs (k : Clock) (d : Carry) (kept : Mask) (s : State) (x : MinuteTaker) :
    s.sameInputs (s.takeMinute k d kept x) := by
  cases x with
  | tags =>
    unfold State.takeMinute
    dsimp only
    rw [State.expireAndTell_eq rfl]
    exact State.deriveMany_sameInputs _ _
  | declarations => exact (s.recalendar_keeps _).2
  | schedule => exact (s.recalendar_keeps _).2
  | windows =>
    unfold State.takeMinute
    dsimp only
    split
    · exact (s.recalendar_keeps _).2
    · exact ⟨rfl, rfl, rfl, rfl, rfl, rfl⟩

theorem State.minuteChange_tags (s : State) (k : Clock) (d : Carry) {o : List MinuteTaker} (ho : o ∈ MinuteTaker.orders) :
    (s.minuteChange k d o).tags = s.tags.filter (fun x => !x.expired k.minute) := by
  refine (foldl_writers (P := State.tags) (g := fun t _ => t.filter (fun x => !x.expired k.minute)) (p := fun x => decide (x = .tags))
    (fun s x hx => ?_) (fun s x hx => ?_) o s).trans ?_
  · exact (s.takeMinute_tags ..).trans (if_pos (of_decide_eq_true hx))
  · exact (s.takeMinute_tags ..).trans (if_neg (of_decide_eq_false hx))
  · rw [tags_of_order ho]
    rfl

theorem State.minuteChange_sameInputs (s : State) (k : Clock) (d : Carry) (o : List MinuteTaker) : s.sameInputs (s.minuteChange k d o) := by
  unfold State.minuteChange
  generalize s.cal.kept k o = kept
  induction o generalizing s with
  | nil => exact ⟨rfl, rfl, rfl, rfl, rfl, rfl⟩
  | cons x rest ih => exact (s.takeMinute_sameInputs k d kept x).trans (ih _)

/-- What neither a record, a notice nor a derivation changes, the scrubber leaves. -/
theorem State.scrub_keeps {α : Type} {P : State → α} (hstore : ∀ s t, P { s with store := t } = P s)
    (hatt : ∀ s a, P { s with att := a } = P s)
    (hderive : ∀ f s, P (s.derive f) = P s) (s : State) (found : Option Content) : P (s.scrub found) = P s := by
  have htell (s : State) (x : Target) : P (s.tellRecord x) = P s := by
    cases x with
    | group f _ => exact hderive f s
    | curve _ => rfl
    | feeder f => exact hderive f s
  cases h : s.store.scrubbed with
  | none => rw [State.scrub_self h]
  | some r =>
    obtain ⟨n, x, c, w⟩ := r
    rw [State.scrub_of h]
    split
    · exact hstore ..
    · exact (htell ..).trans ((hatt ..).trans (hstore ..))

/-- The blocks that the scrubber leaves, beside the store and the attention unit. -/
theorem State.scrub_blocks (s : State) (found : Option Content) : (s.scrub found).cal = s.cal ∧ (s.scrub found).tags = s.tags
    ∧ (s.scrub found).inputs = s.inputs ∧ (s.scrub found).latch = s.latch ∧ (s.scrub found).sections = s.sections
    ∧ (s.scrub found).sample = s.sample ∧ (s.scrub found).engine = s.engine :=
  ⟨State.scrub_keeps (fun _ _ => rfl) (fun _ _ => rfl) (fun f s => (s.derive_touches f).cal) s found,
    State.scrub_keeps (fun _ _ => rfl) (fun _ _ => rfl) (fun f s => (s.derive_touches f).tags) s found,
    State.scrub_keeps (fun _ _ => rfl) (fun _ _ => rfl) (fun f s => (s.derive_touches f).inputs) s found,
    State.scrub_keeps (fun _ _ => rfl) (fun _ _ => rfl) (fun f s => (s.derive_touches f).latch) s found,
    State.scrub_keeps (fun _ _ => rfl) (fun _ _ => rfl) (fun f s => (s.derive_touches f).sections) s found,
    State.scrub_keeps (fun _ _ => rfl) (fun _ _ => rfl) (fun f s => (s.derive_touches f).sample) s found,
    State.scrub_keeps (fun _ _ => rfl) (fun _ _ => rfl) (fun f s => (s.derive_touches f).engine) s found⟩

/-! ## Minutes later (05 R105) -/

/-- A minute whose month and day lie in their ranges, in a year of 2000 or any later one. -/
def Minute.dated (m : Minute) : Prop := m.month ≤ 12 ∧ m.day ≤ 31

/-- A day and a time of day. -/
def Minute.at (m : Minute) (t : Nat) : Minute := { m with hour := t % 1440 / 60, minute := t % 60 }

theorem monthLength_le (y m : Nat) : monthLength y m ≤ 31 := by
  unfold monthLength
  have := longestMonth_le m
  split <;> omega

theorem nextDay_dated {m : Minute} (h : m.dated) : (nextDay m).dated := by
  obtain ⟨hm, hd⟩ := h
  have := monthLength_le m.year m.month
  unfold nextDay Minute.dated
  split
  · dsimp only
    omega
  · split <;> dsimp only <;> omega

theorem nextDay_at (m : Minute) (t : Nat) : nextDay (m.at t) = (nextDay m).at t := by
  unfold nextDay Minute.at
  split
  · rfl
  · split <;> rfl

theorem addDays_at (n : Nat) (m : Minute) (t : Nat) : addDays n (m.at t) = (addDays n m).at t := by
  induction n generalizing m with
  | zero => rfl
  | succ n ih => rw [addDays, nextDay_at, ih, addDays]

theorem addDays_succ (n : Nat) (m : Minute) : addDays (n + 1) m = nextDay (addDays n m) := by
  induction n generalizing m with
  | zero => rfl
  | succ n ih => rw [addDays, ih, addDays]

theorem addDays_dated (n : Nat) {m : Minute} (h : m.dated) : (addDays n m).dated := by
  induction n generalizing m with
  | zero => exact h
  | succ n ih => exact ih (nextDay_dated h)

/-- The last minute of 2099 is the last of its century. -/
theorem laterThan_last {m : Minute} (h : m.dated) (t : Nat) : (m.at t).laterThan lastMinute = true ↔ 2099 < m.year := by
  obtain ⟨hm, hd⟩ := h
  have hrank : (m.at t).rank = (((m.year * 16 + m.month) * 32 + m.day) * 32 + t % 1440 / 60) * 64 + t % 60 := rfl
  have hlast : lastMinute.rank = (((2099 * 16 + 12) * 32 + 31) * 32 + 23) * 64 + 59 := rfl
  rw [Minute.laterThan, decide_eq_true_iff, hrank, hlast]
  omega

/-- The minute a number of minutes after the start of a day, in whatever year. -/
def Minute.after (m : Minute) (t : Nat) : Minute := (addDays (t / 1440) m).at t

theorem addMinutes_eq {m : Minute} (h : m.dated) (n : Nat) : addMinutes m n =
    if 2099 < (m.after (m.hour * 60 + m.minute + n)).year then lastMinute else m.after (m.hour * 60 + m.minute + n) := by
  have hat : addDays ((m.hour * 60 + m.minute + n) / 1440) (m.at (m.hour * 60 + m.minute + n)) =
      m.after (m.hour * 60 + m.minute + n) := addDays_at ..
  have hlater : (m.after (m.hour * 60 + m.minute + n)).laterThan lastMinute = true ↔
      2099 < (m.after (m.hour * 60 + m.minute + n)).year := laterThan_last (addDays_dated _ h) _
  refine Eq.trans ?_ (ite_of_iff hlater rfl rfl)
  rw [← hat]
  rfl

/-- The next minute, in whatever year. -/
def Minute.next (m : Minute) : Minute :=
  if m.minute < 59 then { m with minute := m.minute + 1 }
  else if m.hour < 23 then { m with hour := m.hour + 1, minute := 0 }
  else nextDay { m with hour := 0, minute := 0 }

theorem Minute.after_succ (m : Minute) (t : Nat) : m.after (t + 1) = (m.after t).next := by
  obtain ⟨v, hv⟩ : ∃ v, v = addDays (t / 1440) m := ⟨_, rfl⟩
  have hafter : m.after t = v.at t := by rw [hv, Minute.after]
  unfold Minute.next
  rw [hafter]
  have hmin : (v.at t).minute = t % 60 := rfl
  have hhour : (v.at t).hour = t % 1440 / 60 := rfl
  by_cases hlast : t % 1440 = 1439
  · have hday : (t + 1) / 1440 = t / 1440 + 1 := by omega
    have hzero : (v.at t).hour = 23 ∧ (v.at t).minute = 59 := by omega
    have hstart (w : Minute) : w.at (t + 1) = { w with hour := 0, minute := 0 } := by
      rw [Minute.at]
      congr 1 <;> omega
    rw [if_neg (by omega), if_neg (by omega), Minute.after, hday, addDays_succ, ← hv, ← nextDay_at, hstart]
    rfl
  · have hday : (t + 1) / 1440 = t / 1440 := by omega
    rw [Minute.after, hday, ← hv]
    split
    · have hsame : (t + 1) % 1440 / 60 = t % 1440 / 60 := by omega
      have hnext : (t + 1) % 60 = t % 60 + 1 := by omega
      rw [Minute.at, Minute.at, hsame, hnext]
    · have hnext : (t + 1) % 1440 / 60 = t % 1440 / 60 + 1 := by omega
      have hzero : (t + 1) % 60 = 0 := by omega
      rw [if_pos (by omega), Minute.at, Minute.at, hnext, hzero]

theorem Minute.after_clock (m : Minute) (t : Nat) : (m.after t).hour ≤ 23 ∧ (m.after t).minute ≤ 59 := by
  have hmin : (m.after t).minute = t % 60 := rfl
  have hhour : (m.after t).hour = t % 1440 / 60 := rfl
  omega

theorem Minute.real_dated {m : Minute} (h : m.real = true) : m.dated ∧ m.year ≤ 2099 ∧ m.hour ≤ 23 ∧ m.minute ≤ 59 := by
  simp only [Minute.real, decide_eq_true_eq] at h
  have := monthLength_le m.year m.month
  exact ⟨⟨by omega, by omega⟩, by omega⟩

theorem addMinutes_zero {m : Minute} (h : m.real = true) : addMinutes m 0 = m := by
  obtain ⟨hdated, hyear, hhour, hmin⟩ := Minute.real_dated h
  have hsame : m.after (m.hour * 60 + m.minute) = m := by
    have hday : (m.hour * 60 + m.minute) / 1440 = 0 := by omega
    have hh : (m.hour * 60 + m.minute) % 1440 / 60 = m.hour := by omega
    have hmi : (m.hour * 60 + m.minute) % 60 = m.minute := by omega
    rw [Minute.after, hday, addDays, Minute.at, hh, hmi]
  rw [addMinutes_eq hdated, Nat.add_zero, hsame, if_neg (by omega)]

theorem nextDay_year {m : Minute} (h : m.dated) (hy : m.year ≤ 2099) :
    (nextDay m).year ≤ 2099 ∨ (nextDay m).year = 2100 ∧ m.year = 2099 ∧ m.month = 12 ∧ m.day = 31 := by
  obtain ⟨hm, hd⟩ := h
  unfold nextDay
  split
  · exact .inl hy
  · next hday =>
    split
    · exact .inl hy
    · next hmonth =>
      have h12 : m.month = 12 := by omega
      have hlong : ¬ m.day < 31 := by rwa [h12] at hday
      dsimp only
      omega

theorem nextDay_year_le (m : Minute) : m.year ≤ (nextDay m).year := by
  unfold nextDay
  split
  · exact Nat.le_refl _
  · split
    · exact Nat.le_refl _
    · exact Nat.le_succ _

/-- The minute after one of the century is the clock's next, but at its end. -/
theorem Minute.next_tick {m : Minute} (hd : m.dated) (hy : m.year ≤ 2099) (hh : m.hour ≤ 23) (hm : m.minute ≤ 59) :
    (m = lastMinute ∧ 2099 < m.next.year) ∨
      (m ≠ lastMinute ∧ m.next.year ≤ 2099 ∧ (Clock.tick ⟨m, 59, 0⟩).1.minute = m.next) := by
  unfold Minute.next Clock.tick
  rw [if_neg (Nat.lt_irrefl 59)]
  dsimp only
  by_cases hmin : m.minute < 59
  · rw [if_pos hmin, if_pos hmin]
    exact .inr ⟨fun h => absurd hmin (by rw [h]; decide), hy, rfl⟩
  · rw [if_neg hmin, if_neg hmin]
    by_cases hhour : m.hour < 23
    · rw [if_pos hhour, if_pos hhour]
      exact .inr ⟨fun h => absurd hhour (by rw [h]; decide), hy, rfl⟩
    · rw [if_neg hhour, if_neg hhour]
      rcases nextDay_year (m := { m with hour := 0, minute := 0 }) hd hy with hyear | ⟨hyear, hy', hmonth, hday⟩
      · refine .inr ⟨fun h => absurd hyear (by rw [h]; decide), hyear, ?_⟩
        have hwrap : ¬ 2099 < (nextDay { m with hour := 0, minute := 0 }).year := by omega
        simp only [hwrap, decide_false, Bool.false_eq_true, if_false]
      · have hh' : m.hour = 23 := by omega
        have hm' : m.minute = 59 := by omega
        refine .inl ⟨?_, by omega⟩
        cases m
        subst hh' hm' hy' hmonth hday
        rfl

theorem Minute.next_year_le (m : Minute) : m.year ≤ m.next.year := by
  unfold Minute.next
  split
  · exact Nat.le_refl _
  · split
    · exact Nat.le_refl _
    · exact nextDay_year_le { m with hour := 0, minute := 0 }

theorem addMinutes_succ {m : Minute} (h : m.real = true) (n : Nat) : addMinutes m (n + 1) =
    if addMinutes m n = lastMinute then lastMinute else (Clock.tick ⟨addMinutes m n, 59, 0⟩).1.minute := by
  obtain ⟨hdated, -⟩ := Minute.real_dated h
  have hclock := m.after_clock (m.hour * 60 + m.minute + n)
  have hafter : (m.after (m.hour * 60 + m.minute + n)).dated := addDays_dated _ hdated
  rw [addMinutes_eq hdated, addMinutes_eq hdated, ← Nat.add_assoc, Minute.after_succ]
  generalize m.after (m.hour * 60 + m.minute + n) = v at hclock hafter ⊢
  have hle := v.next_year_le
  by_cases hv : 2099 < v.year
  · rw [if_pos hv, if_pos rfl, if_pos (by omega)]
  · rw [if_neg hv]
    rcases Minute.next_tick hafter (by omega) hclock.1 hclock.2 with ⟨hlast, hyear⟩ | ⟨hlast, hyear, htick⟩
    · rw [if_pos hlast, if_pos hyear]
    · rw [if_neg hlast, if_neg (by omega), htick]

/-! ## MINUTE_CHANGE (O49) -/

theorem exec_minuteChange (tick : MinuteTick) (s : State) : exec (.minuteChange tick) s =
    .next (if s.cal.tick.2.isSome then (s.tickCalendar (wholeOrder tick.order)).scrub tick.found else s) := rfl

theorem Calendar.kept_has {c : Calendar} {k : Clock} {o : List MinuteTaker} (ho : o ∈ MinuteTaker.orders) (x : District) :
    (c.kept k o).has x = (decide (o.idxOf .schedule < o.idxOf .declarations) && c.fires k x) := by
  rw [← scheduleFirst_eq ho]
  cases x <;> rfl

theorem Calendar.fires_eq (c : Calendar) (k : Clock) (x : District) :
    c.fires k x = c.schedule.any (fun p => p.2.recurrence.fits k.minute k.weekday && match p.2.action with
      | .declare m _ _ => m.has x
      | .lift m => m.has x) := by
  unfold Calendar.fires
  simp only [Action.has_districts]
  rfl

/-- The takers one after another, each as the chapters have it. -/
theorem State.minuteChange_eq {s : State} {k : Clock} {d : Carry} {o : List MinuteTaker} {kept : District → Bool}
    (hkept : ∀ x, kept x = (s.cal.kept k o).has x) :
    s.minuteChange k d o = o.foldl (fun (v : State) x => match x with
      | .tags => v.expireAndTell k.minute
      | .declarations => v.recalendar (fun c => { c with
        declarations := ⟨unreached k.minute d.yearWrap (kept .a) c.declarations.a,
          unreached k.minute d.yearWrap (kept .b) c.declarations.b⟩ })
      | .schedule => v.recalendar (fun c => { c with
        schedule := firedSchedule c k
        declarations := ⟨firedSlot c k .a, firedSlot c k .b⟩ })
      | .windows => if d.dateChange = true ∨ d.yearWrap = true then v.recalendar Calendar.evaluateAll else v) s := by
  refine foldl_eq_of_mem (b := s) fun v x _ => ?_
  cases x with
  | tags => rfl
  | windows => rfl
  | declarations =>
    unfold State.takeMinute
    dsimp only
    refine congrArg v.recalendar (funext fun c => ?_)
    rw [hkept, hkept]
    exact congrArg (fun p => { c with declarations := p }) (expireDeclarations_slots ..)
  | schedule =>
    unfold State.takeMinute
    dsimp only
    refine congrArg v.recalendar (funext fun c => ?_)
    have hslots : (fire k.minute k.weekday c.schedule c.declarations).2 = ⟨firedSlot c k .a, firedSlot c k .b⟩ := by
      rw [firedSlot_eq, firedSlot_eq, ← fire_get, ← fire_get]
      rfl
    rw [← fire_schedule c k c.declarations, ← hslots]
    rfl

/-- Settles O49. -/
theorem minuteChangeIsHandedOn : Obligations.MinuteChangeIsHandedOn := by
  refine ⟨fun tick s hk => ?_, fun order found s k0 k d hk htick => ?_, fun s k d order kept hn h4 hkept => ?_,
    fun m n h => ⟨addMinutes_zero h, addMinutes_succ h n⟩, fun s m gone fs hgone hfs => ?_⟩
  · rw [exec_minuteChange]
    rcases hk with hk | ⟨k, hk, h59⟩
    · rw [Calendar.tick_unset hk]
      rfl
    · rw [Calendar.tick_set hk, Clock.tick_within h59]
      rfl
  · have hcarry := Calendar.tick_set hk
    rw [htick] at hcarry
    obtain ⟨v, hv⟩ : ∃ v, v = { s with cal := { s.cal with
        clock := some k
        prescaler := 0
        secondLength := (32768 - 2 * s.cal.trim).toNat } } := ⟨_, rfl⟩
    have ho := order_of_mem (wholeOrder_nodup order) (mem_wholeOrder order)
    have hu : s.tickCalendar (wholeOrder order) = v.minuteChange k d (wholeOrder order) := by
      rw [State.tickCalendar_carry hcarry rfl, hv]
      rfl
    obtain ⟨u, hu'⟩ : ∃ u, u = v.minuteChange k d (wholeOrder order) := ⟨_, rfl⟩
    obtain ⟨hscal, hstags, hsinputs, hslatch, hssections, hssample, hsengine⟩ := u.scrub_blocks found
    obtain ⟨hstore, hinputs, hlatch, hsections, hsample, hengine⟩ := v.minuteChange_sameInputs k d (wholeOrder order)
    have hcal : (u.scrub found).cal = (wholeOrder order).foldl (Calendar.takeMinute k d (v.cal.kept k (wholeOrder order))) v.cal := by
      rw [hscal, hu', State.minuteChange_cal]
    obtain ⟨hschedule, hslots⟩ := v.cal.minuteChange_slots k d ho
    have hfixed : (u.scrub found).cal.fixed = v.cal.fixed := by
      rw [hcal]
      exact foldl_keeps (fun c x => c.takeMinute_fixed k d _ x) _ _
    refine ⟨u.scrub found, u, ?_, rfl, hscal, hstags, ?_, ?_, ?_, ?_, ?_, ?_, ?_, ?_, ?_, ?_, ?_, ?_, ?_, ?_, ?_, ?_, ?_,
      wholeOrder order, wholeOrder_nodup order, mem_wholeOrder order, wholeOrder_self, ?_⟩
    · rw [exec_minuteChange, hcarry, hu', ← hu]
      rfl
    · rw [hu', hstore, hv]
    · exact (congrArg (·.1) hfixed).trans (congrArg (·.cal.clock) hv)
    · exact (congrArg (·.2.1) hfixed).trans (congrArg (·.cal.prescaler) hv)
    · exact (congrArg (·.2.2.1) hfixed).trans (congrArg (·.cal.secondLength) hv)
    · exact (congrArg (·.2.2.2.1) hfixed).trans (congrArg (·.cal.trim) hv)
    · exact (congrArg (·.2.2.2.2) hfixed).trans (congrArg (·.cal.windows) hv)
    · rw [hstags, hu', State.minuteChange_tags v k d ho, hv]
      exact List.filter_congr fun x _ => x.not_expired k.minute
    · rw [hcal, hschedule, hv]
      rfl
    · intro x
      rw [hcal, hslots, hv]
      rfl
    · intro hd
      have hsame := foldl_keeps (P := fun c : Calendar => (c.active, c.floors))
        (fun c x => Prod.ext_iff.mpr (c.takeMinute_floors k d (v.cal.kept k (wholeOrder order)) (x := x) (.inr hd)))
        (wholeOrder order) v.cal
      rw [hcal]
      exact ⟨(congrArg (·.1) hsame).trans (congrArg (·.cal.active) hv), (congrArg (·.2) hsame).trans (congrArg (·.cal.floors) hv)⟩
    · intro hd
      have hclock : v.cal.clock = some k := congrArg (·.cal.clock) hv
      have hwindows : v.cal.windows = s.cal.windows := congrArg (·.cal.windows) hv
      have hall := foldl_establishes (Q := fun c : Calendar => c.evaluated k s.cal.windows)
        (fun c => c.takeMinute_evaluates hd (v.cal.kept k (wholeOrder order)) s.cal.windows)
        (fun c x => c.takeMinute_evaluated hd _ s.cal.windows x) (mem_wholeOrder order .windows) v.cal
      rw [← hcal] at hall
      exact hall ((congrArg (·.1) hfixed).trans hclock) ((congrArg (·.2.2.2.2) hfixed).trans hwindows)
    · rw [hcal]
      exact foldl_establishes (f := Calendar.takeMinute k d (v.cal.kept k (wholeOrder order))) (Q := levelsFollow)
        (x := .schedule) (fun c => Calendar.settleLevels_follow _)
        (fun c x => c.takeMinute_levels k d _) (mem_wholeOrder order .schedule) v.cal
    · rw [hsinputs, hu', hinputs, hv]
    · rw [hslatch, hu', hlatch, hv]
    · rw [hssections, hu', hsections, hv]
    · rw [hssample, hu', hsample, hv]
    · rw [hsengine, hu', hengine, hv]
    · rw [hu', hv]
  · refine State.minuteChange_eq fun x => ?_
    rw [Calendar.kept_has (order_of_four hn h4), Calendar.fires_eq]
    exact hkept x
  · have hexpired (x : Tag) : (!x.frozen && (x.expiry.map (fun e => e.le m)).getD false) = x.expired m := by
      unfold Tag.expired
      cases x.expiry <;> rfl
    have hleft (x : Tag) : (x.frozen || !(x.expiry.map (fun e => e.le m)).getD false) = !x.expired m := by
      rw [← hexpired, Bool.not_and, Bool.not_not]
    simp only [hexpired] at hgone
    simp only [hleft]
    rw [hfs]
    exact State.expireAndTell_eq hgone

end Sys2Proof.Machine

/-! The classes of service and what the transmitter sends (O57). -/

namespace Sys2Proof.Machine

/-! ## The classes (09 R168) -/

theorem Device.positionMet_false {d : Device} : d.positionMet = false ↔ d.desired ≠ none ∧ d.desired ≠ d.ack := by
  rw [Device.positionMet, Bool.or_eq_false_iff, decide_eq_false_iff_not, Option.isNone_eq_false_iff, Option.isSome_iff_ne_none]

theorem blockMet_false {x y : Option BlockPos} : blockMet x y = false ↔ x ≠ none ∧ x ≠ y := by
  rw [blockMet, Bool.or_eq_false_iff, decide_eq_false_iff_not, Option.isNone_eq_false_iff, Option.isSome_iff_ne_none]

theorem Device.positionNeed_iff {d : Device} :
    d.positionNeed = true ↔ d.desired ≠ none ∧ d.desired ≠ d.ack ∧ d.posHeld = false ∧ d.reach = .reachable := by
  simp only [Device.positionNeed, Bool.and_eq_true, Bool.not_eq_true', decide_eq_true_eq, Device.positionMet_false, and_assoc]

theorem Device.needs_huntPosition {d : Device} : d.needs .huntPosition = true ↔
    d.owner = .hunt ∧ d.desired ≠ none ∧ d.desired ≠ d.ack ∧ d.posHeld = false ∧ d.reach = .reachable := by
  rw [Device.needs, Bool.and_eq_true, decide_eq_true_iff, Device.positionNeed_iff]

theorem Device.needs_hostPosition {d : Device} : d.needs .hostPosition = true ↔
    d.owner = .host ∧ d.desired ≠ none ∧ d.desired ≠ d.ack ∧ d.posHeld = false ∧ d.reach = .reachable := by
  rw [Device.needs, Bool.and_eq_true, decide_eq_true_iff, Device.positionNeed_iff]

theorem Device.needs_block {d : Device} : d.needs .block = true ↔
    d.kind = .recloser ∧ d.desiredBlock ≠ none ∧ d.desiredBlock ≠ d.ackBlock ∧ d.blockHeld = false ∧ d.reach = .reachable := by
  simp only [Device.needs, Bool.and_eq_true, Bool.not_eq_true', decide_eq_true_eq, blockMet_false, and_assoc]

theorem Device.needs_probe {d : Device} :
    d.needs .probe = true ↔ (d.reach = .unreachable ∨ d.reach = .local) ∧ d.probeDue = true := by
  rw [Device.needs, Bool.and_eq_true, decide_eq_true_iff]
  cases d.reach <;> simp

/-! ## The choice (09 R170) -/

theorem Table.sorted_pairwise {α : Type} {t : Table α} (h : t.sorted = true) : t.Pairwise (fun p q => p.1 < q.1) := by
  induction t with
  | nil => exact .nil
  | cons p rest ih =>
    obtain ⟨hfirst, hrest⟩ := (Table.sorted_cons p.1 p.2 rest).mp h
    exact .cons hfirst (ih hrest)

theorem Table.pick_pairwise {α : Type} {t : Table α} (h : t.sorted = true) (test : Nat → α → Bool) :
    (t.pick test).Pairwise (· < ·) :=
  List.pairwise_map.mpr (h |> Table.sorted_pairwise |>.filter _)

/-- The first of an ascending list that passes a test, from its minimality. -/
theorem find_least {ns : List Nat} {p : Nat → Bool} {a : Nat} (hs : ns.Pairwise (· < ·)) (ha : a ∈ ns) (hp : p a = true)
    (hleast : ∀ b ∈ ns, p b = true → a ≤ b) : ns.find? p = some a := by
  obtain ⟨before, after, rfl⟩ := List.append_of_mem ha
  refine List.find?_eq_some_iff_append.mpr ⟨hp, before, after, rfl, fun b hb => ?_⟩
  have hlt : b < a := (List.pairwise_append.mp hs).2.2 b hb a (List.mem_cons_self ..)
  have hnot : p b = false := Bool.eq_false_iff.mpr fun h => absurd (hleast b (List.mem_append_left _ hb) h) (by omega)
  rw [hnot]
  rfl

/-- The next address after the last one chosen, wrapping to the lowest (09 R170). -/
theorem nextAfter_eq {last a : Nat} {ns : List Nat} (hs : ns.Pairwise (· < ·)) (ha : a ∈ ns)
    (h : ∀ b ∈ ns, if last < a then (last < b → a ≤ b) else (b ≤ last ∧ a ≤ b)) : nextAfter last ns = some a := by
  unfold nextAfter
  by_cases hlast : last < a
  · rw [find_least hs ha (decide_eq_true hlast) fun b hb hp => (iff_of_eq (if_pos hlast)).mp (h b hb) (of_decide_eq_true hp)]
    rfl
  · have hwrap (b : Nat) (hb : b ∈ ns) : b ≤ last ∧ a ≤ b := (iff_of_eq (if_neg hlast)).mp (h b hb)
    have hnone : ns.find? (fun b => decide (last < b)) = none :=
      List.find?_eq_none.mpr fun b hb => by simpa using (hwrap b hb).1
    have hhead : ns.head? = ns.find? (fun _ => true) := by cases ns <;> rfl
    rw [hnone, hhead, find_least hs ha rfl fun b hb _ => (hwrap b hb).2]
    rfl

theorem Link.mem_eligible {l : Link} {c : ServiceClass} {n : Nat} (hr : l.resends = []) :
    n ∈ l.devices.pick (l.eligible c) ↔ ∃ d, (n, d) ∈ l.devices ∧ d.inFlight = none ∧ d.needs c = true := by
  rw [Table.mem_pick]
  refine exists_congr fun d => and_congr_right fun _ => ?_
  simp [Link.eligible, hr, and_comm]

theorem Link.chooseIn_none {l : Link} {c : ServiceClass} (hr : l.resends = [])
    (h : ∀ p ∈ l.devices, p.2.inFlight = none → p.2.needs c = false) : l.chooseIn c = none := by
  have hnone : l.devices.pick (l.eligible c) = [] := List.eq_nil_iff_forall_not_mem.mpr fun n hn => by
    obtain ⟨d, hd, hidle, hneeds⟩ := (Link.mem_eligible hr).mp hn
    exact absurd (h (n, d) hd hidle) (by rw [hneeds]; decide)
  rw [Link.chooseIn, hnone]
  rfl

theorem ServiceClass.all_get {j : Nat} {c : ServiceClass} (h : ServiceClass.all[j]? = some c) : c.index.num = j + 1 := by
  match j, h with
  | 0, h | 1, h | 2, h | 3, h => cases h; rfl

/-- The arbiter's choice: the lowest class in need, and in it the next address (09 R170). -/
theorem Link.choose_eq {l : Link} {k : ServiceClass} {a : Nat} {d : Device} (hr : l.resends = []) (hs : l.devices.sorted = true)
    (hd : l.devices.find a = some d) (hidle : d.inFlight = none) (hneeds : d.needs k = true)
    (hlower : ∀ p ∈ l.devices, ∀ c, c.index.num < k.index.num → p.2.inFlight = none → p.2.needs c = false)
    (hnext : ∀ p ∈ l.devices, p.2.inFlight = none → p.2.needs k = true →
      if (l.lastChosen.get k.index).getD 0 < a then ((l.lastChosen.get k.index).getD 0 < p.1 → a ≤ p.1)
      else (p.1 ≤ (l.lastChosen.get k.index).getD 0 ∧ a ≤ p.1)) : l.choose = some (k, a) := by
  have hchosen : l.chooseIn k = some a := by
    refine nextAfter_eq (Table.pick_pairwise hs _) ((Link.mem_eligible hr).mpr ⟨d, Table.find_mem hd, hidle, hneeds⟩) fun b hb => ?_
    obtain ⟨e, he, hfree, hneed⟩ := (Link.mem_eligible hr).mp hb
    exact hnext (b, e) he hfree hneed
  have hplace : ServiceClass.all[k.index.num - 1]? = some k := by cases k <;> rfl
  refine findSome_first hplace (by rw [hchosen]; rfl) fun j hj c hc => ?_
  have hc := ServiceClass.all_get hc
  rw [Link.chooseIn_none hr fun p hp => hlower p hp c (by omega)]
  rfl

/-! ## The transmitter (09 R169 to R173) -/

theorem exec_clearFrame (c : Bool) (s : State) : exec (.clearFrame c) s =
    .next { s with link := ({ s.link with carrier := c } : Link).startClear } := rfl

theorem exec_resend (c : Bool) (s : State) : exec (.resend c) s =
    .next { s with link := ({ s.link with carrier := c } : Link).startResend } := rfl

theorem exec_arbiterChoice (c : Bool) (s : State) : exec (.arbiterChoice c) s =
    .next { s with link := ({ s.link with carrier := c } : Link).arbitrate } := rfl

section
variable {l : Link}

theorem Link.startClear_idle (h : ¬ (l.free = true ∧ l.clearWaits = true)) : l.startClear = l := if_neg h

theorem Link.startClear_starts (hf : l.free = true) (hw : l.clearWaits = true) :
    l.startClear = { l with sending := some .clear, clearWaits := false } := if_pos ⟨hf, hw⟩

theorem Link.startResend_idle (h : ¬ (l.free = true ∧ l.clearWaits = false)) : l.startResend = l := if_neg h

theorem Link.startResend_none (h : l.resends = []) : l.startResend = l := by
  unfold Link.startResend
  split
  · simp only [h]
  · rfl

theorem Link.startResend_starts {a : Nat} {rest : List Nat} {d : Device} {o : Order} (hf : l.free = true) (hw : l.clearWaits = false)
    (hr : l.resends = a :: rest) (hd : l.devices.find a = some d) (ho : d.inFlight = some o) :
    l.startResend = { l with sending := some (.order a (d.relay.getD 0) o.code o.tag), resends := rest } := by
  unfold Link.startResend
  rw [if_pos ⟨hf, hw⟩]
  simp only [hr, hd, ho]
  rfl

theorem Link.arbitrate_idle (h : ¬ (l.free = true ∧ l.clearWaits = false ∧ l.resends = [] ∧ inFlightCount l.devices < l.limit)) :
    l.arbitrate = l := if_neg h

theorem Link.arbitrate_none (h : l.choose = none) : l.arbitrate = l := by
  unfold Link.arbitrate
  split
  · simp only [h]
  · rfl

theorem Link.arbitrate_issues {k : ServiceClass} {a : Nat} {d : Device} (hf : l.free = true) (hw : l.clearWaits = false)
    (hr : l.resends = []) (hlimit : inFlightCount l.devices < l.limit) (hc : l.choose = some (k, a)) (hd : l.devices.find a = some d) :
    l.arbitrate = l.issue k a d := by
  unfold Link.arbitrate
  rw [if_pos ⟨hf, hw, hr, hlimit⟩]
  simp only [hc, hd]

theorem Link.free_quiet (h : l.sending = none) : ({ l with carrier := false } : Link).free = true := by
  rw [Link.free, Bool.not_false, Bool.and_true]
  exact Option.isNone_iff_eq_none.mpr h

theorem Link.free_false (h : l.sending ≠ none ∨ l.carrier = true) : ¬ l.free = true := by
  rw [Link.free, Bool.and_eq_true, Option.isNone_iff_eq_none, Bool.not_eq_true']
  rintro ⟨hs, hc⟩
  rcases h with h | h
  · exact h hs
  · exact absurd h (by rw [hc]; decide)

end

/-- A frame-sent event at a device (09 R172). -/
theorem Device.sent_eq (n : Nat) (d : Device) : d.sent n = { d with
    lastTag := some n
    inFlight := match d.inFlight with
      | some o => some (if o.tag = n then
          { o with timer := some (match d.relay with
            | none => 400
            | some _ => 1000) } else o)
      | none => none } := by
  unfold Device.sent Device.replyTime
  cases d.inFlight <;> cases d.relay <;> rfl

/-- Settles O57. -/
theorem theLinkSendsByPriority : Obligations.TheLinkSendsByPriority := by
  refine ⟨fun d => ⟨Device.needs_huntPosition, Device.needs_block, Device.needs_hostPosition, Device.needs_probe, fun h => ?_,
    fun h => ?_, fun h => ?_, fun h => ?_, rfl⟩, fun s c hbusy => ?_, fun s hs => ⟨fun hw => ?_, fun hw => ⟨?_, fun hr => ?_,
    fun a rest d o hr hd ho => ?_, fun hlimit => ?_, fun hr hlimit hsorted => ⟨fun hnone => ?_, fun k a d o hd hidle hneeds hlower hnext
    ho => ?_⟩⟩⟩, fun s => ⟨fun h => ?_, fun h => ?_, fun a r k n h => ?_⟩⟩
  · simp [Device.orderFor, h]
  · simp [Device.orderFor, h]
  · simp [Device.orderFor, h]
  · simp [Device.orderFor, h]
  · have hfree : ¬ ({ s.link with carrier := c } : Link).free = true := Link.free_false hbusy
    rw [exec_clearFrame, exec_resend, exec_arbiterChoice, Link.startClear_idle fun h => hfree h.1,
      Link.startResend_idle fun h => hfree h.1, Link.arbitrate_idle fun h => hfree h.1]
    exact ⟨rfl, rfl, rfl⟩
  · have hwait : ¬ ({ s.link with carrier := false } : Link).clearWaits = false := by
      dsimp only
      rw [hw]
      decide
    rw [exec_clearFrame, exec_resend, exec_arbiterChoice,
      Link.startClear_starts (l := { s.link with carrier := false }) (Link.free_quiet hs) hw,
      Link.startResend_idle (l := { s.link with carrier := false }) fun h => hwait h.2,
      Link.arbitrate_idle (l := { s.link with carrier := false }) fun h => hwait h.2.1]
    exact ⟨rfl, rfl, rfl⟩
  · rw [exec_clearFrame, Link.startClear_idle (l := { s.link with carrier := false }) fun h => absurd h.2 (Bool.eq_false_iff.mp hw)]
  · rw [exec_resend, Link.startResend_none (l := { s.link with carrier := false }) hr]
  · rw [exec_resend, exec_arbiterChoice, Link.startResend_starts (l := { s.link with carrier := false }) (Link.free_quiet hs) hw hr hd ho,
      Link.arbitrate_idle (l := { s.link with carrier := false }) fun h => absurd (hr.symm.trans h.2.2.1) (List.cons_ne_nil a rest)]
    exact ⟨rfl, rfl⟩
  · rw [exec_arbiterChoice, Link.arbitrate_idle (l := { s.link with carrier := false }) fun h => absurd h.2.2.2 (Nat.not_lt.mpr hlimit)]
  · have hchoose : ({ s.link with carrier := false } : Link).choose = none := List.findSome?_eq_none_iff.mpr fun c hc => by
      rw [Link.chooseIn_none (l := { s.link with carrier := false }) hr fun p hp hidle => hnone p hp c hc hidle]
      rfl
    rw [exec_arbiterChoice, Link.arbitrate_none (l := { s.link with carrier := false }) hchoose]
  · have hchoose : ({ s.link with carrier := false } : Link).choose = some (k, a) :=
      Link.choose_eq (l := { s.link with carrier := false }) hr hsorted hd hidle hneeds hlower (hnext _ rfl)
    rw [exec_arbiterChoice, Link.arbitrate_issues (l := { s.link with carrier := false }) (Link.free_quiet hs) hw hr hlimit hchoose hd, ho]
    rfl
  · show Host.Outcome.next { s with link := s.link.frameSent } = _
    rw [Link.frameSent]
    simp only [h]
  · show Host.Outcome.next { s with link := s.link.frameSent } = _
    rw [Link.frameSent]
    simp only [h]
  · show Host.Outcome.next { s with link := s.link.frameSent } = _
    have hlink : s.link.frameSent = { s.link with sending := none, devices := s.link.devices.modify a (Device.sent n) } := by
      rw [Link.frameSent]
      simp only [h]
    rw [hlink]
    refine congrArg (fun t => Host.Outcome.next { s with link := { s.link with sending := none, devices := t } })
      (List.map_congr_left fun p _ => ?_)
    exact congrArg (fun d => if p.1 = a then (p.1, d) else p) (Device.sent_eq n p.2)

end Sys2Proof.Machine

/-! Replies, reply timers and probe timers, and what a hunt is told of a device (O58). -/

namespace Sys2Proof.Machine

/-! ## What the end of an order leaves -/

/-- The blocks that no reply and no timer of the link writes. -/
def State.linkKeeps (s t : State) : Prop := t.link.carrier = s.link.carrier ∧ t.link.sending = s.link.sending ∧ t.pending = s.pending
  ∧ t.port = s.port ∧ t.store = s.store ∧ t.tags = s.tags ∧ t.cal = s.cal ∧ t.cond = s.cond

theorem State.linkKeeps.rfl {s : State} : s.linkKeeps s := ⟨.refl _, .refl _, .refl _, .refl _, .refl _, .refl _, .refl _, .refl _⟩

theorem Touches.linkKeeps {f : Feeder} {s t : State} (h : Touches f s t) : s.linkKeeps t :=
  ⟨(congrArg (·.link.carrier) h.rest :), (congrArg (·.link.sending) h.rest :), h.pending, h.port, h.store, h.tags, h.cal, h.cond⟩

theorem State.endOrder_keeps (s : State) (a : Nat) (old new : Device) (w : Option DeviceTrouble) :
    s.linkKeeps (s.endOrder a old new w) := by
  unfold State.endOrder
  dsimp only
  split
  · exact ((Touches.refl old.feeder _).huntDevice a w _).linkKeeps
  · exact ⟨rfl, rfl, rfl, rfl, rfl, rfl, rfl, rfl⟩

section
variable {s : State} {r : ReplyFrame} {d : Device} {o : Order}

theorem State.completeOrder_done (h : r.result = .done ∨ (r.result = .refused ∧ o.code = .status)) : s.completeOrder r d o =
    s.endOrder r.address d (d.acknowledge r.position r.block).reachable none := by
  unfold State.completeOrder
  rcases h with h | ⟨h, hcode⟩
  · simp only [h]
  · simp only [h]
    exact if_pos hcode

theorem State.completeOrder_refused (h : r.result = .refused) (hcode : o.code ≠ .status) : s.completeOrder r d o =
    (s.linkFault d.feeder r.address .refused).endOrder r.address d ((d.acknowledge r.position r.block).reachable.holdBack o.code)
      (some .refused) := by
  unfold State.completeOrder
  simp only [h]
  exact if_neg hcode

theorem State.completeOrder_local (h : r.result = .local) : s.completeOrder r d o =
    (s.linkFault d.feeder r.address .local).endOrder r.address d ((d.acknowledge r.position r.block).lost .local) (some .local) := by
  unfold State.completeOrder
  simp only [h]

end

theorem State.completeOrder_keeps (s : State) (r : ReplyFrame) (d : Device) (o : Order) :
    s.linkKeeps (s.completeOrder r d o) := by
  unfold State.completeOrder
  dsimp only
  split
  · exact s.endOrder_keeps ..
  · split
    · exact s.endOrder_keeps ..
    · exact State.endOrder_keeps (s.linkFault ..) ..
  · exact State.endOrder_keeps (s.linkFault ..) ..

theorem State.takeReply_of {s : State} {r : ReplyFrame} {d : Device} {o : Order} (hd : s.link.devices.find r.address = some d)
    (ho : d.inFlight = some o) (htag : o.tag = r.tag) (hblock : d.kind = .recloser → r.block.isSome = true) :
    s.takeReply r = s.completeOrder r d o := by
  unfold State.takeReply
  simp only [hd, ho]
  exact if_pos ⟨htag, hblock⟩

theorem State.takeReply_discards {s : State} {r : ReplyFrame} (h : ∀ d, s.link.devices.find r.address = some d →
    d.inFlight = none ∨ (∃ o, d.inFlight = some o ∧ o.tag ≠ r.tag) ∨ (d.kind = .recloser ∧ r.block = none)) :
    s.takeReply r = s := by
  unfold State.takeReply
  cases hd : s.link.devices.find r.address with
  | none => rfl
  | some d =>
    cases ho : d.inFlight with
    | none =>
      simp only [ho]
    | some o =>
      simp only [ho]
      refine if_neg fun ⟨htag, hblock⟩ => ?_
      rcases h d hd with hidle | ⟨o', ho', htag'⟩ | ⟨hkind, hnone⟩
      · rw [ho] at hidle
        cases hidle
      · rw [ho] at ho'
        cases ho'
        exact htag' htag
      · have hsome := hblock hkind
        rw [hnone] at hsome
        cases hsome

theorem State.takeReply_keeps (s : State) (r : ReplyFrame) : s.linkKeeps (s.takeReply r) := by
  unfold State.takeReply
  split
  · exact .rfl
  · split
    · exact .rfl
    · split
      · exact s.completeOrder_keeps ..
      · exact .rfl

theorem exec_replyFrame_some {frame : List Byte} {cut : Bool} {r : ReplyFrame} (h : readReplyFrame frame cut = some r) (s : State) :
    exec (.replyFrame frame cut) s = .next ((s.senseCarrier false).takeReply r) := by
  rw [exec, execReplyFrame, h]

theorem exec_replyFrame_none {frame : List Byte} {cut : Bool} (h : readReplyFrame frame cut = none) (s : State) :
    exec (.replyFrame frame cut) s = .next (s.senseCarrier false) := by
  rw [exec, execReplyFrame, h]

/-! ## Reply frames (11 R210) -/

theorem replyBlock_none {n : Nat} (h : 1 < n) : replyBlock n = none := by
  match n, h with
  | n + 2, _ => rfl

theorem replyPosition_none {n : Nat} (h : 1 < n) : replyPosition n = none := by
  match n, h with
  | n + 2, _ => rfl

theorem ReplyResult.ofPlace_none {n : Nat} (h : 2 < n) : ReplyResult.ofPlace n = none := by
  match n, h with
  | n + 3, _ => rfl

/-- What a whole frame with its CRC-16 is read as. -/
theorem readReplyFrame_whole (a t r p b : Byte) : readReplyFrame (withCrc [a, t, r, p, b]) false =
    match ReplyResult.ofPlace r.toNat, replyPosition p.toNat with
    | some r, some p => some ⟨a.toNat, t.toNat, r, p, replyBlock b.toNat⟩
    | _, _ => none := by
  have hcrc : crcChecks (withCrc [a, t, r, p, b]) = true := (crcChecks_append_pair _ _ _).trans (decide_eq_true rfl)
  exact if_neg (by rw [hcrc]; simp)

theorem readReplyFrame_bytes {frame : List Byte} {cut : Bool} {x : ReplyFrame} (h : readReplyFrame frame cut = some x) :
    cut = false ∧ crcChecks frame = true ∧ ∃ a t r p b c d, frame = [a, t, r, p, b, c, d] ∧ x.address = a.toNat ∧ x.tag = t.toNat
      ∧ x.block = replyBlock b.toNat ∧ r.toNat ≤ 2 ∧ p.toNat ≤ 1 := by
  unfold readReplyFrame at h
  split at h
  · next a t r p b c d =>
    split at h
    · cases h
    · next hgood =>
      obtain ⟨hcut, hcrc⟩ := not_or.mp hgood
      split at h
      · next res pos hres hpos =>
        cases h
        refine ⟨Bool.not_eq_true _ ▸ hcut, Bool.not_eq_false _ ▸ hcrc, a, t, r, p, b, c, d, rfl, rfl, rfl, rfl, ?_, ?_⟩
        · exact Nat.le_of_not_lt fun hgt => absurd hres (by rw [ReplyResult.ofPlace_none hgt]; nofun)
        · exact Nat.le_of_not_lt fun hgt => absurd hpos (by rw [replyPosition_none hgt]; nofun)
      · cases h
  · cases h

theorem exec_replyFrame_discards {frame : List Byte} {cut : Bool} {s : State} (h : ∀ x, readReplyFrame frame cut = some x →
    (s.senseCarrier false).takeReply x = s.senseCarrier false) : exec (.replyFrame frame cut) s = .next (s.senseCarrier false) := by
  cases hread : readReplyFrame frame cut with
  | none => exact exec_replyFrame_none hread s
  | some x => rw [exec_replyFrame_some hread, h x hread]

/-- The byte of a position in a reply (11 R210). -/
def SwitchPos.replyByte : SwitchPos → Nat
  | .opened => 0
  | .closed => 1

theorem readReplyFrame_of {a n result : Nat} {res : ReplyResult} (pos : SwitchPos) (b : Byte) (ha : a ≤ 30) (hn : n ≤ 15)
    (hres : ReplyResult.ofPlace result = some res) : readReplyFrame (withCrc [byte a, byte n, byte result, byte pos.replyByte, b]) false =
      some ⟨a, n, res, pos, replyBlock b.toNat⟩ := by
  have hsmall : result ≤ 2 := Nat.le_of_not_lt fun hgt => absurd hres (by rw [ReplyResult.ofPlace_none hgt]; nofun)
  rw [readReplyFrame_whole, byte_toNat (n := a) (by omega), byte_toNat (n := n) (by omega), byte_toNat (n := result) (by omega), hres]
  cases pos <;> rfl

/-! ## The end of an order -/

theorem movedAway_eq {old new : Device} {pos : SwitchPos} (hack : new.ack = some pos) (hdesired : new.desired = old.desired) :
    movedAway old new = if old.ack = some pos ∨ old.desired = some pos then none else some pos.trouble := by
  unfold movedAway
  rw [hack, hdesired]
  exact ite_of_iff (or_congr_right eq_comm) rfl rfl

/-- The device record of an order ended by a reply. -/
def Device.replied (pos : SwitchPos) (block : BlockPos) (d : Device) : Device := { d with
  inFlight := none
  ack := some pos
  ackBlock := if d.kind = .recloser then some block else none
  reach := .reachable
  probe := none
  probeDue := false }

/-- The part once an order has ended with a device record. -/
def State.ended (s : State) (a : Nat) (e : Device) : State := { s with link := { s.link with
  devices := s.link.devices.map (fun p => if p.1 = a then (p.1, e) else p)
  resends := s.link.resends.filter (fun b => b != a) } }

/-- What the hunt that owns a device is told at the end of an order (09 R180). -/
def State.toldOf (s : State) (a : Nat) (d : Device) (pos : SwitchPos) (w : Option DeviceTrouble) : State :=
  if d.owner = .hunt then s.huntDevice d.feeder a w (if d.ack = some pos ∨ d.desired = some pos then none else some pos.trouble) else s

theorem State.endOrder_eq {s : State} {a : Nat} {d new : Device} {pos : SwitchPos} {w : Option DeviceTrouble}
    (hack : new.ack = some pos) (hdesired : new.desired = d.desired) :
    s.endOrder a d new w = (s.ended a { new with inFlight := none }).toldOf a d pos w := by
  unfold State.endOrder
  rw [movedAway_eq hack hdesired]
  rfl

/-- A device whose position is lost has not moved away. -/
theorem movedAway_lost {old new : Device} (h : new.ack = none) : movedAway old new = none := by
  unfold movedAway
  rw [h]
  split <;> rfl

theorem State.endOrder_lost {s : State} {a : Nat} {d new : Device} {w : Option DeviceTrouble} (h : new.ack = none) :
    s.endOrder a d new w = if d.owner = .hunt then (s.ended a { new with inFlight := none }).huntDevice d.feeder a w none
      else s.ended a { new with inFlight := none } := by
  unfold State.endOrder
  rw [movedAway_lost h]
  rfl

theorem Device.acknowledge_reachable {d : Device} {pos : SwitchPos} {x : Option BlockPos} {block : BlockPos}
    (h : d.kind = .recloser → x = some block) : { (d.acknowledge pos x).reachable with inFlight := none } = d.replied pos block := by
  have hblock : (if d.kind = .recloser then x else none) = if d.kind = .recloser then some block else none := by
    split
    · next hk => rw [h hk]
    · rfl
  unfold Device.replied Device.acknowledge Device.reachable
  rw [hblock]

theorem OrderCode.position_eq (c : OrderCode) : c.position = decide (c = .openSwitch ∨ c = .closeSwitch) := by cases c <;> rfl

theorem OrderCode.block_eq (c : OrderCode) : c.block = decide (c = .blockReclose ∨ c = .unblockReclose) := by cases c <;> rfl

/-- What a REFUSED holds back (09 R177). -/
theorem Device.holdBack_eq {e : Device} (c : OrderCode) : e.holdBack c = { e with
    posHeld := e.posHeld || (decide (c = .openSwitch ∨ c = .closeSwitch) && decide (e.desired ≠ none ∧ e.desired ≠ e.ack))
    blockHeld := e.blockHeld || (decide (c = .blockReclose ∨ c = .unblockReclose)
      && decide (e.desiredBlock ≠ none ∧ e.desiredBlock ≠ e.ackBlock)) } := by
  have hpos : (!e.positionMet) = decide (e.desired ≠ none ∧ e.desired ≠ e.ack) :=
    Bool.eq_iff_iff.mpr (by rw [Bool.not_eq_true', Device.positionMet_false, decide_eq_true_iff])
  have hblock : (!blockMet e.desiredBlock e.ackBlock) = decide (e.desiredBlock ≠ none ∧ e.desiredBlock ≠ e.ackBlock) :=
    Bool.eq_iff_iff.mpr (by rw [Bool.not_eq_true', blockMet_false, decide_eq_true_iff])
  rw [Device.holdBack, OrderCode.position_eq, OrderCode.block_eq, hpos, hblock]

/-! ## Timers (09 R173, R174, R179) -/

theorem exec_replyTimerExpiry (a : Nat) (s : State) : exec (.replyTimerExpiry a) s = .next (s.replyExpires a) := rfl

theorem exec_probeTimerExpiry (a : Nat) (s : State) : exec (.probeTimerExpiry a) s = .next (s.probeExpires a) := rfl

theorem State.replyExpires_keeps (s : State) (a : Nat) : s.linkKeeps (s.replyExpires a) := by
  unfold State.replyExpires
  split
  · exact .rfl
  · split
    · exact .rfl
    · split
      · exact .rfl
      · split
        · exact ⟨rfl, rfl, rfl, rfl, rfl, rfl, rfl, rfl⟩
        · exact State.endOrder_keeps (s.linkFault ..) ..

theorem State.replyExpires_idle {s : State} {a : Nat}
    (h : ∀ d, s.link.devices.find a = some d → ∀ o, d.inFlight = some o → o.timer ≠ some 0) : s.replyExpires a = s := by
  unfold State.replyExpires
  cases hd : s.link.devices.find a with
  | none => rfl
  | some d =>
    cases ho : d.inFlight with
    | none => simp only [ho]
    | some o =>
      simp only [ho]
      exact if_pos (h d hd o ho)

theorem State.replyExpires_of {s : State} {a : Nat} {d : Device} {o : Order} (hd : s.link.devices.find a = some d)
    (ho : d.inFlight = some o) (ht : o.timer = some 0) : s.replyExpires a =
      if o.sends = 1 then
        { s with link := { s.link with
          devices := s.link.devices.modify a (fun d => { d with inFlight := some { o with sends := 2, timer := none } })
          resends := s.link.resends ++ [a] } }
      else
        (s.linkFault d.feeder a .noReply).endOrder a d { d.lost .unreachable with ack := none, ackBlock := none }
          (if d.reach = .unreachable then none else some DeviceTrouble.unreachable) := by
  unfold State.replyExpires
  simp only [hd, ho]
  exact if_neg (Classical.not_not.mpr ht)

theorem State.probeExpires_idle {s : State} {a : Nat}
    (h : ∀ d, s.link.devices.find a = some d → ¬ (d.probe = some 0 ∧ d.reach ≠ .reachable)) : s.probeExpires a = s := by
  unfold State.probeExpires
  cases hd : s.link.devices.find a with
  | none => rfl
  | some d => exact if_neg (h d hd)

theorem State.probeExpires_of {s : State} {a : Nat} {d : Device} (hd : s.link.devices.find a = some d) (hp : d.probe = some 0)
    (hr : d.reach ≠ .reachable) : s.probeExpires a = s.modDevice a (fun d => { d with probe := none, probeDue := true }) := by
  unfold State.probeExpires
  simp only [hd]
  exact if_pos ⟨hp, hr⟩

/-! ## What a hunt is told of a device (08 R141, R158) -/

theorem Device.matched_iff {d : Device} : d.matched = true ↔ d.inFlight = none ∧ d.ack ≠ none ∧ d.ack = d.desired := by
  simp [Device.matched, Option.isSome_iff_ne_none, and_assoc]

theorem allMatch_iff {t : Table Device} {ns : List Nat} : allMatch t ns = true ↔ allStand t ns := by
  unfold allMatch allStand
  rw [List.all_eq_true]
  refine forall₂_congr fun a _ => ?_
  cases t.find a with
  | none => simp
  | some d => simpa using Device.matched_iff

section
variable {s : State} {f : Feeder} {h : Hunt} {a : Nat} {w m : Option DeviceTrouble}

theorem State.huntDevice_none (hh : s.hunts.get f = none) : s.huntDevice f a w m = s := by
  unfold State.huntDevice
  simp only [hh]

theorem State.huntDevice_other (hh : s.hunts.get f = some h) (ht : h.phase.testing = false) (hd : h.phase.devices = false) :
    s.huntDevice f a w m = s := by
  unfold State.huntDevice
  simp only [hh, ht, hd]
  rfl

theorem State.huntDevice_testing {x : DeviceTrouble} (hh : s.hunts.get f = some h) (ht : h.phase.testing = true) (ha : a ∈ h.named)
    (hx : w.or m = some x) : s.huntDevice f a w m = (s.huntOpen f).1.endHunt f (.abandoned .link) (some (.device a x)) := by
  unfold State.huntDevice
  simp only [hh, ht, List.contains_iff_mem, ha, hx, if_true]

theorem State.huntDevice_quiet (hh : s.hunts.get f = some h) (ht : h.phase.testing = true) (hx : a ∈ h.named → w.or m = none) :
    s.huntDevice f a w m = s := by
  have hnone : (if a ∈ h.named then w.or m else none) = none := ite_eq_right_iff.mpr hx
  unfold State.huntDevice
  simp only [hh, ht, List.contains_iff_mem, hnone, if_true]

theorem State.huntDevice_trouble {x : DeviceTrouble} (hh : s.hunts.get f = some h) (ht : h.phase.testing = false)
    (hd : h.phase.devices = true) (ha : a ∈ h.named) (hx : w = some x) :
    s.huntDevice f a w m = s.endHunt f (.abandoned .link) (some (.device a x)) := by
  unfold State.huntDevice
  simp only [hh, ht, hd, List.contains_iff_mem, ha, hx, if_true, Bool.false_eq_true, if_false]

theorem State.huntDevice_judges (hh : s.hunts.get f = some h) (ht : h.phase.testing = false) (hd : h.phase.devices = true)
    (hx : a ∈ h.named → w = none) : s.huntDevice f a w m = s.judgeNeeded f := by
  have hnone : (if a ∈ h.named then w else none) = none := ite_eq_right_iff.mpr hx
  unfold State.huntDevice
  simp only [hh, ht, hd, List.contains_iff_mem, hnone, if_true, Bool.false_eq_true, if_false]

end

theorem HuntPhase.testing_iff {p : HuntPhase} : p.testing = true ↔ p = .testingClose ∨ p = .testingHold := by
  cases p <;> simp [HuntPhase.testing]

theorem HuntPhase.devices_iff {p : HuntPhase} : p.devices = true ↔ p = .isolatingDevices ∨ p = .restoringDevices := by
  cases p <;> simp [HuntPhase.devices]

theorem State.judgeNeeded_devices {s : State} {f : Feeder} {h : Hunt} (hh : s.hunts.get f = some h)
    (hp : h.phase = .isolatingDevices ∨ h.phase = .restoringDevices) : s.judgeNeeded f =
    if allMatch s.link.devices h.named then (if h.phase = .isolatingDevices then s.isolated f h else s.askRestoreClose f h) else s := by
  unfold State.judgeNeeded
  simp only [hh]
  refine ite_of_iff Iff.rfl ?_ rfl
  rcases hp with hp | hp <;> simp only [hp] <;> rfl

/-- A hunt and the tellings of its devices (08 section 8.8). -/
theorem State.huntDevice_by_phase (s : State) (f : Feeder) (a : Nat) (w m : Option DeviceTrouble) {h : Hunt}
    (hh : s.hunts.get f = some h) :
    (h.phase ∉ [HuntPhase.isolatingDevices, .restoringDevices, .testingClose, .testingHold] → s.huntDevice f a w m = s)
    ∧ (a ∉ h.named → (h.phase = .testingClose ∨ h.phase = .testingHold) → s.huntDevice f a w m = s)
    ∧ (a ∈ h.named → (h.phase = .testingClose ∨ h.phase = .testingHold) →
      (∀ x, (w = some x ∨ (w = none ∧ m = some x)) →
        s.huntDevice f a w m = (s.huntOpen f).1.endHunt f (.abandoned .link) (some (.device a x)))
      ∧ (w = none → m = none → s.huntDevice f a w m = s))
    ∧ ((h.phase = .isolatingDevices ∨ h.phase = .restoringDevices) →
      (∀ x, a ∈ h.named → w = some x → s.huntDevice f a w m = s.endHunt f (.abandoned .link) (some (.device a x)))
      ∧ ((a ∉ h.named ∨ w = none) → ¬ allStand s.link.devices h.named → s.huntDevice f a w m = s)
      ∧ ((a ∉ h.named ∨ w = none) → allStand s.link.devices h.named → s.huntDevice f a w m =
        if h.phase = .isolatingDevices then s.isolated f h else s.askRestoreClose f h)) := by
  refine ⟨fun hp => ?_, fun ha hp => ?_, fun ha hp => ⟨fun x hx => ?_, fun hw hm => ?_⟩, fun hp => ?_⟩
  · have ht : h.phase.testing = false := Bool.eq_false_iff.mpr fun ht => hp (by simp [HuntPhase.testing_iff.mp ht])
    have hd : h.phase.devices = false := Bool.eq_false_iff.mpr fun hd => hp (by
      rcases HuntPhase.devices_iff.mp hd with hd | hd <;> simp [hd])
    exact State.huntDevice_other hh ht hd
  · exact State.huntDevice_quiet hh (HuntPhase.testing_iff.mpr hp) fun hin => absurd hin ha
  · refine State.huntDevice_testing hh (HuntPhase.testing_iff.mpr hp) ha ?_
    rcases hx with rfl | ⟨rfl, rfl⟩ <;> rfl
  · refine State.huntDevice_quiet hh (HuntPhase.testing_iff.mpr hp) fun _ => ?_
    rw [hw, hm]
    rfl
  · have hd := HuntPhase.devices_iff.mpr hp
    have ht : h.phase.testing = false := Bool.eq_false_iff.mpr fun ht => by
      rcases hp with hp | hp <;> rw [hp] at ht <;> cases ht
    refine ⟨fun x ha hw => State.huntDevice_trouble hh ht hd ha hw, fun hnone hstand => ?_, fun hnone hstand => ?_⟩
    · rw [State.huntDevice_judges hh ht hd fun ha => hnone.resolve_left (Classical.not_not.mpr ha), State.judgeNeeded_devices hh hp]
      exact if_neg (mt allMatch_iff.mp hstand)
    · rw [State.huntDevice_judges hh ht hd fun ha => hnone.resolve_left (Classical.not_not.mpr ha), State.judgeNeeded_devices hh hp]
      exact if_pos (allMatch_iff.mpr hstand)

/-- Settles O58. -/
theorem repliesAndTimeoutsEndOrders : Obligations.RepliesAndTimeoutsEndOrders := by
  refine ⟨fun frame cut s => ?_, fun frame cut s hbad => ?_, fun a t r p b cut s hno => ?_,
    fun s a n pos result b block d o frame ends tell ha hn hresult hframe hd ho hb htell hends e htag he => ?_,
    fun s a d o hd ho ht => ⟨fun hsends => ?_, fun t hsends heq => ?_⟩, fun s a h => ?_,
    fun s a d hd hp => ⟨fun hr => ?_, fun hr => ?_⟩, fun s a h => ?_, fun s a => ⟨?_, ?_⟩,
    fun s f a w m => ⟨State.huntDevice_none, fun h hh => s.huntDevice_by_phase f a w m hh⟩⟩
  · cases hread : readReplyFrame frame cut with
    | none => exact ⟨_, exec_replyFrame_none hread s, rfl, rfl, rfl, rfl, rfl, rfl, rfl⟩
    | some x =>
      obtain ⟨hcarrier, -, hpending, hport, hstore, htags, hcal, hcond⟩ := (s.senseCarrier false).takeReply_keeps x
      exact ⟨_, exec_replyFrame_some hread s, hcarrier, hpending, hport, hstore, htags, hcal, hcond⟩
  · refine exec_replyFrame_discards fun x hx => ?_
    obtain ⟨hcut, hcrc, a, t, r, p, b, c, d, rfl, -, -, -, hr, hp⟩ := readReplyFrame_bytes hx
    rcases hbad with h | h | h | ⟨y, hy, hgt⟩ | ⟨y, hy, hgt⟩
    · rw [h] at hcut
      cases hcut
    · exact absurd rfl h
    · rw [h] at hcrc
      cases hcrc
    · cases hy
      omega
    · cases hy
      omega
  · refine exec_replyFrame_discards fun x hx => ?_
    obtain ⟨-, -, a', t', r', p', b', c, d, hbytes, haddress, htag, hblock, -, -⟩ := readReplyFrame_bytes hx
    cases hbytes
    refine State.takeReply_discards fun d hd => ?_
    rw [haddress] at hd
    rw [htag, hblock]
    rcases hno d hd with h | h | ⟨hkind, hgt⟩
    · exact .inl h
    · exact .inr (.inl h)
    · exact .inr (.inr ⟨hkind, replyBlock_none hgt⟩)
  · have hread (res : ReplyResult) (hres : ReplyResult.ofPlace result = some res) :
        readReplyFrame frame false = some ⟨a, n, res, pos, replyBlock b.toNat⟩ := by
      rw [hframe]
      cases pos
      · exact readReplyFrame_of .opened b ha hn hres
      · exact readReplyFrame_of .closed b ha hn hres
    have hblock (hk : d.kind = .recloser) : replyBlock b.toNat = some block := by
      rw [hb hk]
      cases block <;> rfl
    have htake (res : ReplyResult) (hres : ReplyResult.ofPlace result = some res) :
        exec (.replyFrame frame false) s = .next ((s.senseCarrier false).completeOrder ⟨a, n, res, pos, replyBlock b.toNat⟩ d o) := by
      rw [exec_replyFrame_some (hread res hres),
        State.takeReply_of (s := s.senseCarrier false) (r := ⟨a, n, res, pos, replyBlock b.toNat⟩) hd ho htag
          fun hk => by rw [hblock hk]; rfl]
    have htold (x : State) (w : Option DeviceTrouble) : tell x w = x.toldOf a d pos w := by
      rw [htell]
      cases pos <;> rfl
    have hends' (e : Device) : ends e = (s.senseCarrier false).ended a e := hends e
    have he' : e = d.replied pos block := he
    refine ⟨fun h => ?_, fun h hcode => ?_, fun h => ?_⟩
    · rw [htold, hends', he', ← Device.acknowledge_reachable hblock]
      rcases h with rfl | ⟨rfl, hcode⟩
      · rw [htake .done rfl, State.completeOrder_done (.inl rfl)]
        exact congrArg Host.Outcome.next (State.endOrder_eq rfl rfl)
      · rw [htake .refused rfl, State.completeOrder_done (.inr ⟨rfl, hcode⟩)]
        exact congrArg Host.Outcome.next (State.endOrder_eq rfl rfl)
    · rw [htold, hends', he', ← Device.acknowledge_reachable hblock, htake .refused (by rw [h]; rfl),
        State.completeOrder_refused rfl hcode, Device.holdBack_eq]
      exact congrArg Host.Outcome.next (State.endOrder_eq rfl rfl)
    · rw [htold, hends', he', ← Device.acknowledge_reachable hblock, htake .local (by rw [h]; rfl), State.completeOrder_local rfl]
      exact congrArg Host.Outcome.next (State.endOrder_eq rfl rfl)
  · rw [exec_replyTimerExpiry, State.replyExpires_of hd ho ht, if_pos hsends]
    rfl
  · rw [exec_replyTimerExpiry, State.replyExpires_of hd ho ht, if_neg (by omega), State.endOrder_lost rfl, heq]
    rfl
  · rw [exec_replyTimerExpiry, State.replyExpires_idle h]
  · rw [exec_probeTimerExpiry, State.probeExpires_of hd hp hr]
    rfl
  · rw [exec_probeTimerExpiry, State.probeExpires_idle fun e he hpr => hpr.2 (Option.some.inj (hd.symm.trans he) ▸ hr)]
  · rw [exec_probeTimerExpiry, State.probeExpires_idle fun e he hpr => h e he hpr.1]
  · obtain ⟨-, hsending, hpending, hport, hstore, htags, hcal, hcond⟩ := s.replyExpires_keeps a
    exact ⟨_, exec_replyTimerExpiry a s, hsending, hpending, hport, hstore, htags, hcal, hcond⟩
  · refine ⟨_, exec_probeTimerExpiry a s, ?_⟩
    unfold State.probeExpires
    split
    · rfl
    · split <;> rfl

end Sys2Proof.Machine

/-! The end of a hunt, its step, and the hunt commands (O53). -/

namespace Sys2Proof.Machine

/-! ## The end of a hunt (08 R155, 03 R64) -/

/-- An order in flight for a position. -/
theorem inFlight_position (x : Option Order) : (x.map (·.code.position)).getD false = true ↔
    ∃ o, x = some o ∧ (o.code = .openSwitch ∨ o.code = .closeSwitch) := by
  cases x with
  | none => simp
  | some o => simp [OrderCode.position_eq]

theorem Device.returned_eq (keep : Bool) (d : Device) : d.returned keep =
    if keep = true then { d with owner := .host }
    else { d with
      owner := .host
      posHeld := false
      desired := match d.inFlight with
        | some o => if o.code = .openSwitch ∨ o.code = .closeSwitch then none else d.ack
        | none => d.ack } := by
  unfold Device.returned
  cases d.inFlight with
  | none => rfl
  | some o =>
    refine ite_of_iff Iff.rfl rfl ?_
    simp only [Option.map_some, Option.getD_some, OrderCode.position_eq, decide_eq_true_eq]

theorem returnDevices_eq (f : Feeder) (keep : Option Nat) (t : Table Device) : returnDevices f keep t = devicesReturned f keep t := by
  refine List.map_congr_left fun p _ => congrArg (Prod.mk p.1) ?_
  refine ite_of_iff decide_eq_true_iff ?_ rfl
  exact (Device.returned_eq ..).trans (ite_of_iff decide_eq_true_iff rfl rfl)

theorem State.closeHunt_eq {s : State} {f : Feeder} {h : Hunt} (hh : s.hunts.get f = some h) (final : HuntPhase)
    (detail : Option HuntDetail) : s.closeHunt f final detail = huntEnded s f h final detail := by
  unfold State.closeHunt huntEnded
  simp only [hh]
  rw [← returnDevices_eq]
  rfl

/-- The leaving of HUNT by the drives and the position (03 R64). -/
theorem State.leaveHunt_eq {s : State} {f : Feeder} {r : Seq} (hr : r = s.seq.get f) : s.leaveHunt f =
    if r.tripDrive then s.putSeq f { r with state := .tripping .huntEnd false, tripElement := none, huntTest := false }
    else if r.position = .closed then s.putSeq f { r with
      state := .closed, shots := 0, tripElement := none, window := none, huntTest := false, closeDrive := false, closeFail := none }
    else (s.putSeq f { stopped r with state := .lockout .huntEnd, tripElement := none, closeDrive := false }).give
      (.feeder f) (.lockout .huntEnd r.shots) := by
  unfold State.leaveHunt
  dsimp only
  rw [← hr]
  refine ite_of_iff Iff.rfl (State.modSeq_eq _ hr) ?_
  rw [State.modSeq_eq _ hr, State.modSeq_putSeq, State.putSeq_seq, Four.get_set_self, State.lockout_putSeq]
  rfl

theorem State.endHunt_eq {s : State} {f : Feeder} {h : Hunt} {r : Seq} (hh : s.hunts.get f = some h) (hr : r = s.seq.get f)
    (final : HuntPhase) (detail : Option HuntDetail) : s.endHunt f final detail =
      if r.tripDrive then (huntEnded s f h final detail).putSeq f
        { r with state := .tripping .huntEnd false, tripElement := none, huntTest := false }
      else if r.position = .closed then (huntEnded s f h final detail).putSeq f { r with
        state := .closed, shots := 0, tripElement := none, window := none, huntTest := false, closeDrive := false, closeFail := none }
      else ((huntEnded s f h final detail).putSeq f
        { stopped r with state := .lockout .huntEnd, tripElement := none, closeDrive := false }).give
          (.feeder f) (.lockout .huntEnd r.shots) := by
  rw [State.endHunt, State.closeHunt_eq hh]
  exact State.leaveHunt_eq (s := huntEnded s f h final detail) hr

/-- The leaving of HUNT writes no block but the sequencer's and the notices. -/
theorem State.endHunt_rest {s : State} {f : Feeder} {h : Hunt} (hh : s.hunts.get f = some h) (final : HuntPhase)
    (detail : Option HuntDetail) : s.endHunt f final detail = { huntEnded s f h final detail with
      seq := (s.endHunt f final detail).seq, backup := (s.endHunt f final detail).backup, att := (s.endHunt f final detail).att } := by
  rw [State.endHunt_eq hh rfl]
  split
  · rfl
  · split <;> rfl

/-! ## The step (08 R145) -/

/-- PENDING candidates marked SKIPPED. -/
def skipAll (cs : List Candidate) : List Candidate :=
  cs.map (fun c => if c.status = .pending then { c with status := .skipped } else c)

theorem searchStep_none {skip : Nat → Bool} {cs : List Candidate} (h : ∀ c ∈ cs, c.status = .pending → skip c.number = true) :
    searchStep skip cs = (skipAll cs, none) := by
  induction cs with
  | nil => rfl
  | cons c rest ih =>
    have hrest := ih fun b hb => h b (List.mem_cons_of_mem c hb)
    unfold searchStep skipAll
    rw [List.map_cons]
    by_cases hc : c.status = .pending
    · rw [if_pos hc, if_pos hc, if_pos (h c (List.mem_cons_self ..) hc), hrest]
      rfl
    · rw [if_neg hc, if_neg hc, hrest]
      rfl

theorem searchStep_takes {skip : Nat → Bool} {before after : List Candidate} {c : Candidate} (hc : c.status = .pending)
    (hskip : skip c.number = false) (h : ∀ b ∈ before, b.status = .pending → skip b.number = true) :
    searchStep skip (before ++ c :: after) = (skipAll before ++ c :: after, some before.length) := by
  induction before with
  | nil =>
    rw [List.nil_append, searchStep, if_pos hc, if_neg (by rw [hskip]; nofun)]
    rfl
  | cons b rest ih =>
    have hrest := ih fun x hx => h x (List.mem_cons_of_mem b hx)
    unfold skipAll
    rw [List.cons_append, searchStep, List.map_cons]
    by_cases hb : b.status = .pending
    · rw [if_pos hb, if_pos hb, if_pos (h b (List.mem_cons_self ..) hb), hrest]
      rfl
    · rw [if_neg hb, if_neg hb, hrest]
      rfl

section
variable {s : State} {f : Feeder} {h : Hunt}

theorem State.takeStep_none (hall : ∀ c ∈ h.candidates, c.status = .pending →
    skipped (s.sections.get f) (s.cond.get f).exclusion c.number = true) : s.takeStep f h =
      (s.putHunt f (some { h with candidates := skipAll h.candidates, current := none })).beginRestore f
        { h with candidates := skipAll h.candidates, current := none } := by
  unfold State.takeStep
  rw [searchStep_none hall]

theorem State.takeStep_takes {before after : List Candidate} {c : Candidate} (hh : h.candidates = before ++ c :: after)
    (hc : c.status = .pending) (hskip : skipped (s.sections.get f) (s.cond.get f).exclusion c.number = false)
    (hall : ∀ b ∈ before, b.status = .pending → skipped (s.sections.get f) (s.cond.get f).exclusion b.number = true) :
    s.takeStep f h = s.isolate f { h with candidates := skipAll before ++ c :: after, current := none } before.length c.number := by
  have hplace : (skipAll before ++ c :: after)[before.length]? = some c := by
    rw [List.getElem?_append_right (by simp [skipAll])]
    simp [skipAll]
  unfold State.takeStep
  rw [hh, searchStep_takes hc hskip hall]
  simp only [hplace]

end

theorem skipped_iff {t : Table Section} {x : Exclusion} {n : Nat} : skipped t x n = true ↔
    x = .wholeFeeder ∨ ∃ ns, x = .sections ns ∧ ∃ m ∈ ns, m ∈ unavoidable t n := by
  cases x with
  | wholeFeeder => simp [skipped]
  | sections ns => simp [skipped, and_comm]

/-- A spread over a section map reaches what its start and the sections let pass reach. -/
theorem spread_leastDown {t : Table Section} {through : Section → Bool} {ns : List Nat} {start : Nat → Prop} {P : Section → Prop}
    (hs : ∀ m, m ∈ ns ↔ start m) (hp : ∀ x, through x = true ↔ P x) : leastDown t start P (spread t through sectionCount ns) := by
  refine ⟨fun m hm => mem_spread_of_mem t through _ ns ((hs m).mpr hm),
    fun keep hstart hdown => spread_least t through _ ns keep (fun m hm => hstart m ((hs m).mp hm))
      fun p hp' hkeep hthrough => hdown p hp' hkeep ((hp p.2).mp hthrough), fun hlen p hp' hparent hthrough => ?_⟩
  have hfuel : (t.filter (fun p => !ns.contains p.1)).length ≤ sectionCount := Nat.le_trans (List.length_filter_le ..) hlen
  exact spread_goesDown t through _ ns hfuel p hp' hparent ((hp p.2).mpr hthrough)

theorem Section.headless_iff (x : Section) : x.headless = true ↔ x.head = none := Option.isNone_iff_eq_none

theorem testSpan_leastDown (t : Table Section) (n : Nat) : leastDown t (fun m => m = n) (fun y => y.head = none) (testSpan t n) :=
  spread_leastDown (fun _ => List.mem_singleton) Section.headless_iff

theorem unavoidable_leastDown (t : Table Section) (n : Nat) :
    leastDown t (fun m => m = n ∨ m ∈ ancestors t n ∨ ∃ y, (m, y) ∈ t ∧ y.parent = 0 ∧ y.head = none) (fun y => y.head = none)
      (unavoidable t n) :=
  spread_leastDown (fun m => by simp [headlessRoots, Table.mem_pick, Section.headless_iff]) Section.headless_iff

theorem mem_namedOpen {t : Table Section} {x : Exclusion} {n a : Nat} : a ∈ namedOpen t x n ↔
    (∃ m ∈ testSpan t n, ∃ k y, (k, y) ∈ t ∧ y.parent = m ∧ headOf t k = some a)
      ∨ ∃ ns m, x = .sections ns ∧ m ∈ ns ∧ nearestHead t m = some a := by
  have hspan : a ∈ ((testSpan t n).flatMap (childrenOf t)).filterMap (headOf t) ↔
      ∃ m ∈ testSpan t n, ∃ k y, (k, y) ∈ t ∧ y.parent = m ∧ headOf t k = some a := by
    simp only [List.mem_filterMap, List.mem_flatMap, childrenOf, Table.mem_pick, decide_eq_true_eq]
    constructor
    · rintro ⟨k, ⟨m, hm, y, hy, hp⟩, ha⟩
      exact ⟨m, hm, k, y, hy, hp, ha⟩
    · rintro ⟨m, hm, k, y, hy, hp, ha⟩
      exact ⟨k, ⟨m, hm, y, hy, hp⟩, ha⟩
  unfold namedOpen
  rw [List.mem_append, hspan]
  refine or_congr_right ?_
  cases x with
  | wholeFeeder => simp
  | sections ns => simp

theorem mem_namedClosed {t : Table Section} {n a : Nat} :
    a ∈ namedClosed t n ↔ headOf t n = some a ∨ ∃ m ∈ ancestors t n, headOf t m = some a := by
  simp [namedClosed, List.mem_filterMap]

/-! ## Isolation (08 R146) -/

theorem Table.find_mapAll {α : Type} (t : Table α) (g : Nat → α → α) (a : Nat) : (t.mapAll g).find a = (t.find a).map (g a) := by
  induction t with
  | nil => rfl
  | cons p rest ih =>
    obtain ⟨k, x⟩ := p
    have hcons : Table.mapAll ((k, x) :: rest) g = (k, g k x) :: Table.mapAll rest g := rfl
    rw [hcons]
    unfold Table.find
    by_cases hk : k = a
    · rw [if_pos hk, if_pos hk, hk]
      rfl
    · rw [if_neg hk, if_neg hk]
      exact ih

theorem setNamed_eq (toOpen toClose : List Nat) (t : Table Device) : setNamed toOpen toClose t = t.map (fun p => (p.1,
    if p.1 ∈ toClose then { p.2 with desired := some .closed, owner := .hunt, posHeld := false }
    else if p.1 ∈ toOpen then { p.2 with desired := some .opened, owner := .hunt, posHeld := false }
    else p.2)) :=
  List.map_congr_left fun p _ => congrArg (Prod.mk p.1)
    (ite_of_iff List.contains_iff_mem rfl (ite_of_iff List.contains_iff_mem rfl rfl))

/-- Setting desired positions leaves the reach of every device. -/
theorem setNamed_reach (toOpen toClose : List Nat) (t : Table Device) (a : Nat) :
    ((setNamed toOpen toClose t).find a).map (·.reach) = (t.find a).map (·.reach) := by
  unfold setNamed
  rw [Table.find_mapAll, Option.map_map]
  refine congrArg (Option.map · (t.find a)) (funext fun d => ?_)
  dsimp only [Function.comp]
  split
  · rfl
  · split <;> rfl

/-- The trouble of a device that cannot be ordered. -/
def troubleOf (t : Table Device) (a : Nat) : Option (Nat × DeviceTrouble) :=
  ((t.find a).bind (fun d => d.reach.trouble)).map (fun w => (a, w))

theorem troubleOf_setNamed (toOpen toClose : List Nat) (t : Table Device) (a : Nat) :
    troubleOf (setNamed toOpen toClose t) a = troubleOf t a := by
  have hbind (x : Option Device) : x.bind (fun d => d.reach.trouble) = (x.map (·.reach)).bind Reach.trouble := by cases x <;> rfl
  rw [troubleOf, troubleOf, hbind, hbind, setNamed_reach]

/-- A search of an ascending list finds the least number at which something is found. -/
theorem findSome_least {β : Type} {ns : List Nat} {p : Nat → Option β} {a : Nat} {b : β} (hs : ns.Pairwise (· < ·)) (ha : a ∈ ns)
    (hb : p a = some b) (hleast : ∀ c ∈ ns, c < a → p c = none) : ns.findSome? p = some b := by
  obtain ⟨before, after, rfl⟩ := List.append_of_mem ha
  have hnone : before.findSome? p = none := List.findSome?_eq_none_iff.mpr fun c hc =>
    hleast c (List.mem_append_left _ hc) ((List.pairwise_append.mp hs).2.2 c hc a (List.mem_cons_self ..))
  rw [List.findSome?_append, hnone, List.findSome?_cons, hb]
  rfl

theorem firstTrouble_some {t : Table Device} {ns : List Nat} {a : Nat} {d : Device} (hs : ns.Pairwise (· < ·)) (ha : a ∈ ns)
    (hd : t.find a = some d) (hr : d.reach ≠ .reachable)
    (hleast : ∀ b ∈ ns, b < a → ∀ y, t.find b = some y → y.reach = .reachable) :
    firstTrouble t ns = some (a, if d.reach = .local then .local else .unreachable) := by
  refine findSome_least hs ha ?_ fun b hb hlt => ?_
  · rw [hd]
    match hreach : d.reach with
    | .reachable => exact absurd hreach hr
    | .local => simp [hreach, Reach.trouble]
    | .unreachable => simp [hreach, Reach.trouble]
  · cases hy : t.find b with
    | none => rfl
    | some y => simp [hleast b hb hlt y hy, Reach.trouble]

theorem firstTrouble_none {t : Table Device} {ns : List Nat} (h : ∀ a ∈ ns, ∀ d, t.find a = some d → d.reach = .reachable) :
    firstTrouble t ns = none := by
  refine List.findSome?_eq_none_iff.mpr fun a ha => ?_
  cases hd : t.find a with
  | none => rfl
  | some d => simp [h a ha d hd, Reach.trouble]

theorem firstTrouble_setNamed (toOpen toClose : List Nat) (t : Table Device) (ns : List Nat) :
    firstTrouble (setNamed toOpen toClose t) ns = firstTrouble t ns :=
  congrArg (List.findSome? · ns) (funext fun a => troubleOf_setNamed toOpen toClose t a)

/-- The part while a hunt isolates: its devices set, and its record. -/
def State.isolating (s : State) (f : Feeder) (toOpen toClose : List Nat) (h : Hunt) : State :=
  (s.putDevices (setNamed toOpen toClose s.link.devices)).putHunt f (some h)

section
variable {s : State} {f : Feeder} {h h1 : Hunt} {place n : Nat} {toOpen toClose : List Nat}
  (hopen : toOpen = namedOpen (s.sections.get f) (s.cond.get f).exclusion n) (hclose : toClose = namedClosed (s.sections.get f) n)
  (h1eq : h1 = { h with phase := .isolatingDevices, current := some place, named := sortNums (toOpen ++ toClose) })
include hopen hclose h1eq

theorem State.isolate_trouble {a : Nat} {w : DeviceTrouble} (ht : firstTrouble s.link.devices h1.named = some (a, w)) :
    s.isolate f h place n = (s.isolating f toOpen toClose h1).endHunt f (.abandoned .link) (some (.device a w)) := by
  have hnamed : sortNums (toOpen ++ toClose) = h1.named := by rw [h1eq]
  have hdevices : (s.isolating f toOpen toClose h1).link.devices = setNamed toOpen toClose s.link.devices := rfl
  have hstate : (s.putDevices (setNamed toOpen toClose s.link.devices)).putHunt f (some h1) = s.isolating f toOpen toClose h1 := rfl
  unfold State.isolate
  dsimp only
  rw [← hopen, ← hclose, ← h1eq, hnamed, hstate, hdevices, firstTrouble_setNamed]
  simp only [ht]

theorem State.isolate_named (ht : firstTrouble s.link.devices h1.named = none) : s.isolate f h place n =
    if allMatch (s.isolating f toOpen toClose h1).link.devices h1.named then (s.isolating f toOpen toClose h1).isolated f h1
    else s.isolating f toOpen toClose h1 := by
  have hnamed : sortNums (toOpen ++ toClose) = h1.named := by rw [h1eq]
  have hdevices : (s.isolating f toOpen toClose h1).link.devices = setNamed toOpen toClose s.link.devices := rfl
  have hstate : (s.putDevices (setNamed toOpen toClose s.link.devices)).putHunt f (some h1) = s.isolating f toOpen toClose h1 := rfl
  unfold State.isolate
  dsimp only
  rw [← hopen, ← hclose, ← h1eq, hnamed, hstate, hdevices, firstTrouble_setNamed]
  simp only [ht]

end

/-! ## The test close (08 R147, 03 R65) -/

section
variable {s : State} {f : Feeder} {h : Hunt}

/-- TEST_CLOSE and RESTORE_CLOSE issued (03 R65). -/
theorem State.huntClose_opened {x : HuntService} (hx : (s.seq.get f).state = .hunt .idle) (hb : huntBlocker s f = none)
    (hp : (s.seq.get f).position = .opened) : s.huntClose f x = (huntCloseIssued s f x (decide (x = .testClosing)), .issued) := by
  rw [huntBlocker_eq] at hb
  have htime : huntCloseIssued s f x (decide (x = .testClosing)) = s.putSeq f { s.seq.get f with
      closeDrive := true
      closeFail := some (s.closeFailTime f)
      state := .hunt x
      huntTest := (s.seq.get f).huntTest || decide (x = .testClosing) } :=
    congrArg (fun n => s.putSeq f { s.seq.get f with
      closeDrive := true
      closeFail := some n
      state := .hunt x
      huntTest := (s.seq.get f).huntTest || decide (x = .testClosing) }) (closeFailTime_eq s f).symm
  unfold State.huntClose
  rw [if_pos hx, htime, hb]
  exact if_pos hp

theorem State.huntClose_position {x : HuntService} (hx : (s.seq.get f).state = .hunt .idle) (hb : huntBlocker s f = none)
    (hp : (s.seq.get f).position ≠ .opened) : s.huntClose f x = (s, .position) := by
  rw [huntBlocker_eq] at hb
  unfold State.huntClose
  rw [if_pos hx, hb]
  exact if_neg hp

theorem State.isolated_blocked {c : Cause} (hb : huntBlocker s f = some c) :
    s.isolated f h = s.endHunt f (.abandoned .blocked) (some (.cause c)) := by
  rw [huntBlocker_eq] at hb
  unfold State.isolated
  simp only [hb]

theorem State.isolated_spent (hb : huntBlocker s f = none) (hused : h.used = h.budget) :
    s.isolated f h = s.endHunt f (.abandoned .budget) none := by
  rw [huntBlocker_eq] at hb
  unfold State.isolated
  simp only [hb]
  exact if_pos hused

theorem State.isolated_issues (hb : huntBlocker s f = none) (hused : h.used ≠ h.budget) (hx : (s.seq.get f).state = .hunt .idle)
    (hp : (s.seq.get f).position = .opened) : s.isolated f h = { huntCloseIssued s f .testClosing true with
      hunts := s.hunts.set f (some { h with phase := .testingClose, used := h.used + 1 }) } := by
  have hclose := State.huntClose_opened (x := .testClosing) hx hb hp
  rw [huntBlocker_eq] at hb
  unfold State.isolated
  simp only [hb, hclose]
  exact if_neg hused

theorem State.isolated_unopened (hb : huntBlocker s f = none) (hused : h.used ≠ h.budget) (hx : (s.seq.get f).state = .hunt .idle)
    (hp : (s.seq.get f).position ≠ .opened) : s.isolated f h = s.endHunt f (.abandoned .position) (some (.breaker .notOpen)) := by
  have hclose := State.huntClose_position (x := .testClosing) hx hb hp
  rw [huntBlocker_eq] at hb
  unfold State.isolated
  simp only [hb, hclose]
  exact if_neg hused

end

/-! ## What a hunt keeps from its start -/

/-- The fields of a hunt record that its start sets for good. -/
def Hunt.started (h : Hunt) (host : Bool) (l : Location) (budget : Nat) (numbers : List Nat) : Prop :=
  h.hostStart = host ∧ h.location = l ∧ h.budget = budget ∧ h.candidates.map (·.number) = numbers

/-- A feeder's hunt as it was started, and the shot counter at 0 beside it. -/
def State.carries (s : State) (f : Feeder) (host : Bool) (l : Location) (budget : Nat) (numbers : List Nat) : Prop :=
  ∃ h, s.hunts.get f = some h ∧ h.started host l budget numbers ∧ (s.seq.get f).shots = 0

section
variable {s : State} {f : Feeder} {b : Bool} {l : Location} {n : Nat} {ns : List Nat} {h : Hunt}

theorem State.carries_putHunt (hs : (s.seq.get f).shots = 0) (hh : h.started b l n ns) : (s.putHunt f (some h)).carries f b l n ns :=
  ⟨h, Four.get_set_self .., hh, hs⟩

theorem State.carries.shots (hc : s.carries f b l n ns) : (s.seq.get f).shots = 0 := by
  obtain ⟨-, -, -, hs⟩ := hc
  exact hs

theorem State.carries_endHunt (hc : s.carries f b l n ns) (p : HuntPhase) (d : Option HuntDetail) :
    (s.endHunt f p d).carries f b l n ns := by
  obtain ⟨h, hh, hstarted, hs⟩ := hc
  have hclosed : (huntEnded s f h p d).hunts.get f = some { h with
      phase := p, detail := d, hold := none, current := if p = .found then h.current else none, named := [] } :=
    Four.get_set_self ..
  rw [State.endHunt_eq hh rfl]
  split
  · exact ⟨_, hclosed, hstarted, (congrArg Seq.shots (Four.get_set_self ..)).trans hs⟩
  · split
    · exact ⟨_, hclosed, hstarted, congrArg Seq.shots (Four.get_set_self ..)⟩
    · exact ⟨_, hclosed, hstarted, (congrArg Seq.shots (Four.get_set_self ..)).trans hs⟩

theorem State.carries_huntClose (hc : s.carries f b l n ns) (x : HuntService) : (s.huntClose f x).1.carries f b l n ns := by
  obtain ⟨h, hh, hstarted, hs⟩ := hc
  unfold State.huntClose
  dsimp only
  split
  · split
    · exact ⟨h, hh, hstarted, hs⟩
    · split
      · exact ⟨h, hh, hstarted, (congrArg Seq.shots (Four.get_set_self ..)).trans hs⟩
      · exact ⟨h, hh, hstarted, hs⟩
  · exact ⟨h, hh, hstarted, hs⟩

theorem State.carries_isolated (hc : s.carries f b l n ns) (hh : h.started b l n ns) : (s.isolated f h).carries f b l n ns := by
  have hclose := State.carries_huntClose hc .testClosing
  unfold State.isolated
  split
  · exact State.carries_endHunt hc _ _
  · split
    · exact State.carries_endHunt hc _ _
    · cases hx : s.huntClose f .testClosing with
      | mk u answer =>
        rw [hx] at hclose
        cases answer with
        | issued => exact State.carries_putHunt hclose.shots hh
        | blocked c => exact State.carries_endHunt hclose _ _
        | position => exact State.carries_endHunt hclose _ _
        | wrongState => exact hclose

theorem State.carries_askRestoreClose (hc : s.carries f b l n ns) (hh : h.started b l n ns) :
    (s.askRestoreClose f h).carries f b l n ns := by
  have hclose := State.carries_huntClose hc .restoreClosing
  unfold State.askRestoreClose
  split
  · exact State.carries_endHunt hc _ _
  · cases hx : s.huntClose f .restoreClosing with
    | mk u answer =>
      rw [hx] at hclose
      cases answer with
      | issued => exact State.carries_putHunt hclose.shots hh
      | blocked c => exact State.carries_endHunt hclose _ _
      | position => exact State.carries_endHunt hclose _ _
      | wrongState => exact hclose

theorem State.carries_awaitRestore (hs : (s.seq.get f).shots = 0) (hh : h.started b l n ns) :
    (s.awaitRestore f h).carries f b l n ns := by
  have hput := State.carries_putHunt (s := s) hs hh
  unfold State.awaitRestore
  dsimp only
  split
  · exact State.carries_askRestoreClose hput hh
  · exact hput

theorem State.carries_beginRestore (hc : s.carries f b l n ns) (hh : h.started b l n ns) : (s.beginRestore f h).carries f b l n ns := by
  unfold State.beginRestore
  split
  · split
    · exact State.carries_endHunt hc _ _
    · exact State.carries_awaitRestore (s := s.putDevices _) hc.shots hh
  · exact State.carries_awaitRestore (s := s.putDevices _) hc.shots hh

theorem State.carries_isolate (hs : (s.seq.get f).shots = 0) (hh : h.started b l n ns) (place m : Nat) :
    (s.isolate f h place m).carries f b l n ns := by
  have hput (h1 : Hunt) (hh : h1.started b l n ns) : (s.isolating f (namedOpen (s.sections.get f) (s.cond.get f).exclusion m)
      (namedClosed (s.sections.get f) m) h1).carries f b l n ns := State.carries_putHunt (s := s.putDevices _) hs hh
  unfold State.isolate
  dsimp only
  split
  · exact State.carries_endHunt (hput _ (by exact hh)) _ _
  · split
    · exact State.carries_isolated (hput _ (by exact hh)) hh
    · exact hput _ hh

theorem searchStep_numbers (skip : Nat → Bool) (cs : List Candidate) : (searchStep skip cs).1.map (·.number) = cs.map (·.number) := by
  induction cs with
  | nil => rfl
  | cons c rest ih =>
    unfold searchStep
    split
    · split
      · exact congrArg (c.number :: ·) ih
      · rfl
    · exact congrArg (c.number :: ·) ih

theorem State.carries_takeStep (hs : (s.seq.get f).shots = 0) (hh : h.started b l n ns) : (s.takeStep f h).carries f b l n ns := by
  obtain ⟨hhost, hlocation, hbudget, hnumbers⟩ := hh
  have hstep : Hunt.started { h with
      candidates := (searchStep (skipped (s.sections.get f) (s.cond.get f).exclusion) h.candidates).1, current := none } b l n ns :=
    ⟨hhost, hlocation, hbudget, (searchStep_numbers ..).trans hnumbers⟩
  unfold State.takeStep
  dsimp only
  split
  · split
    · exact State.carries_isolate hs hstep _ _
    · exact State.carries_putHunt hs hstep
  · exact State.carries_beginRestore (State.carries_putHunt hs hstep) hstep

end

/-! ## The hunt commands (O53) -/

theorem Causes.any_blocksHunt (c : Causes) : c.any Cause.blocksHunt = true ↔ ∃ y, c.has y = true ∧ y ≠ .seasonReclose := by
  refine (Causes.any_iff ..).trans (exists_congr fun y => and_congr_right fun _ => ?_)
  cases y <;> simp [Cause.blocksHunt]

section
variable {s : State} {f : Feeder}

theorem startHunt_refused (h : (∀ c, (s.seq.get f).state ≠ .lockout c) ∨ (s.seq.get f).position ≠ .opened
    ∨ ∃ y, (s.causes f).has y = true ∧ y ≠ .seasonReclose) : startHunt f.num s = (s, refuse .wrongState) := by
  rw [startHunt, onFeeder_num]
  dsimp only
  by_cases hlocked : (s.seq.get f).state.lockedOut = false
  · exact if_pos hlocked
  · rw [if_neg hlocked]
    by_cases hp : (s.seq.get f).position ≠ .opened
    · exact if_pos hp
    · rw [if_neg hp]
      refine if_pos ((Causes.any_blocksHunt _).mpr ((h.resolve_left fun hno => ?_).resolve_left hp))
      obtain ⟨c, hc⟩ := (SeqState.lockedOut_iff _).mp (Bool.not_eq_false _ ▸ hlocked)
      exact hno c hc

theorem startHunt_judged {c : LockoutCause} (hc : (s.seq.get f).state = .lockout c) (hp : (s.seq.get f).position = .opened)
    (hfree : ∀ y, (s.causes f).has y = true → y = .seasonReclose) : startHunt f.num s =
      if candidatesOf (s.sections.get f) (s.locate f) = [] then (s, refuse .notFound)
      else (huntStarted s f true (candidatesOf (s.sections.get f) (s.locate f)),
        ok (be1 (candidatesOf (s.sections.get f) (s.locate f)).length)) := by
  have hlocked : ¬ (s.seq.get f).state.lockedOut = false := by
    rw [hc]
    nofun
  have hnone : ¬ (s.causes f).any Cause.blocksHunt = true := fun h => by
    obtain ⟨y, hy, hne⟩ := (Causes.any_blocksHunt _).mp h
    exact hne (hfree y hy)
  rw [startHunt, onFeeder_num]
  dsimp only
  rw [if_neg hlocked, if_neg (Classical.not_not.mpr hp), if_neg hnone]
  rfl

/-- What a start leaves, however far its first step goes (08 R144). -/
theorem huntStarted_leaves (s : State) (f : Feeder) (numbers : List Nat) : ∃ h, (huntStarted s f true numbers).hunts.get f = some h
    ∧ h.started true (s.locate f) (s.activeGroup f).testBudget numbers ∧ ((huntStarted s f true numbers).seq.get f).shots = 0
    ∧ (h.phase.final = true ↔ ∀ x, ((huntStarted s f true numbers).seq.get f).state ≠ .hunt x)
    ∧ ∀ g, g ≠ f → (huntStarted s f true numbers).seq.get g = s.seq.get g
      ∧ (huntStarted s f true numbers).hunts.get g = s.hunts.get g := by
  have hnumbers : (numbers.map (fun n => (⟨n, .pending⟩ : Candidate))).map (·.number) = numbers := by
    rw [List.map_map]
    exact List.map_id numbers
  obtain ⟨h, hh, hstarted, hshots⟩ : (huntStarted s f true numbers).carries f true (s.locate f) (s.activeGroup f).testBudget numbers :=
    State.carries_takeStep (congrArg Seq.shots (Four.get_set_self ..)) ⟨rfl, rfl, rfl, hnumbers⟩
  have hbond : (huntStarted s f true numbers).bonded f := State.bonded_startHuntOn true (s.locate f) numbers
  have htouches : Touches f s (huntStarted s f true numbers) := (Touches.refl f s).startHuntOn true (s.locate f) numbers
  refine ⟨h, hh, hstarted, hshots, ?_, fun g hg => ⟨htouches.seqOther g hg, htouches.huntOther g hg⟩⟩
  unfold State.bonded State.huntRuns at hbond
  simp only [hh] at hbond
  have hhunting (x : SeqState) : x.hunting = false ↔ ∀ y, x ≠ .hunt y := by cases x <;> simp [SeqState.hunting]
  rw [← hhunting, ← hbond, Bool.not_eq_false']

theorem onHunt_none {k : Feeder → Hunt → State × Reply} (h : s.hunts.get f = none) : onHunt f.num s k = (s, refuse .notFound) := by
  rw [onHunt, onFeeder_num]
  simp only [h]

theorem onHunt_some {k : Feeder → Hunt → State × Reply} {h : Hunt} (hh : s.hunts.get f = some h) : onHunt f.num s k = k f h := by
  rw [onHunt, onFeeder_num]
  simp only [hh]

/-- Every hunt-owned device of a feeder returns to the host. -/
theorem devicesReturned_owner {keep : Option Nat} {t : Table Device} {p : Nat × Device} (hp : p ∈ devicesReturned f keep t)
    (hf : p.2.feeder = f) : p.2.owner = .host := by
  obtain ⟨⟨a, d⟩, -, rfl⟩ := List.mem_map.mp hp
  dsimp only at hf ⊢
  split
  · split <;> rfl
  · next hno =>
    rw [if_neg hno] at hf
    cases ho : d.owner with
    | host => rfl
    | hunt => exact absurd ⟨hf, ho⟩ hno

end

/-- Settles O53. -/
theorem huntCommandsAnswer : Obligations.HuntCommandsAnswer := by
  refine ⟨?_, ?_, ?_, ?_, ?_⟩
  · rintro s f h final detail r e hh hr rfl
    exact ⟨State.closeHunt_eq hh final detail, State.endHunt_eq hh hr final detail⟩
  · rintro s f h t x mark rfl rfl hmark
    have hskip : mark = skipAll := funext hmark
    rw [hskip]
    refine ⟨State.takeStep_none, fun before c after hh hc hskipped hall => State.takeStep_takes hh hc hskipped hall,
      fun n => skipped_iff, fun n => ⟨testSpan_leastDown _ n, unavoidable_leastDown _ n⟩,
      fun n a => ⟨mem_namedOpen, mem_namedClosed⟩⟩
  · rintro s s1 f h h1 place n toOpen toClose hopen hclose h1eq hnamed hs1
    have h1eq' : h1 = { h with phase := .isolatingDevices, current := some place, named := sortNums (toOpen ++ toClose) } := by
      rw [← hnamed]
      exact h1eq
    have hstate : s1 = s.isolating f toOpen toClose h1 := by
      rw [hs1, ← setNamed_eq]
      rfl
    have hsorted : h1.named.Pairwise (· < ·) := by
      rw [hnamed]
      exact pairwise_sortNums _
    refine ⟨fun a => ?_, fun a d ha hd hr hleast => ?_, fun hall => ?_⟩
    · rw [hnamed, mem_sortNums, List.mem_append]
    · rw [hstate]
      exact State.isolate_trouble hopen hclose h1eq' (firstTrouble_some hsorted ha hd hr hleast)
    · rw [State.isolate_named hopen hclose h1eq' (firstTrouble_none hall), ← hstate]
      exact ⟨fun hstand => if_pos (allMatch_iff.mpr hstand), fun hno => if_neg (mt allMatch_iff.mp hno)⟩
  · intro s f h
    exact ⟨fun c hc => State.isolated_blocked hc, fun hb hused => State.isolated_spent hb hused,
      fun hb hused hx => ⟨fun hp => State.isolated_issues hb hused hx hp, fun hp => State.isolated_unopened hb hused hx hp⟩⟩
  · intro s f h
    refine ⟨?_, fun x hx => ⟨fun hfinal => ?_, fun hrun => ?_, ?_, fun hfinal => ?_, fun hrun => ?_⟩, fun hnone => ⟨?_, ?_, ?_⟩⟩
    · rintro r numbers rfl rfl
      refine ⟨fun hno => serve_onFeeder f h (startHunt_refused (s := s.restartSupervision) hno), fun c hc hp hfree => ?_⟩
      have hstart := startHunt_judged (s := s.restartSupervision) hc hp hfree
      have hstarts (hsome : candidatesOf (s.sections.get f) (s.locate f) ≠ []) :=
        serve_onFeeder (code := 46) f h (hstart.trans (if_neg hsome))
      refine ⟨fun hempty => serve_onFeeder f h (hstart.trans (if_pos hempty)), hstarts, fun hsome => ?_⟩
      obtain ⟨y, hy, ⟨hhost, hlocation, hbudget, hnumbers⟩, hshots, hfinal, hothers⟩ :=
        huntStarted_leaves s.restartSupervision f (candidatesOf (s.sections.get f) (s.locate f))
      exact ⟨_, y, hstarts hsome, hy, hhost, hlocation, hbudget, hnumbers, hshots, hfinal, hothers⟩
    · exact serve_onFeeder f h ((onHunt_some (s := s.restartSupervision) hx).trans (if_pos hfinal))
    · have hend := State.endHunt_eq (s := s.restartSupervision) hx rfl (.abandoned .host) none
      have hrest := State.endHunt_rest (s := s.restartSupervision) hx (.abandoned .host) none
      have htouches := (Touches.refl f s.restartSupervision).endHunt (.abandoned .host) none
      have hlink : (s.restartSupervision.endHunt f (.abandoned .host) none).link =
          { s.link with devices := devicesReturned f none s.link.devices } := (congrArg State.link hrest :)
      refine ⟨_, serve_onFeeder f h ((onHunt_some (s := s.restartSupervision) hx).trans (if_neg (by rw [hrun]; nofun))),
        (congrArg (·.hunts.get f) hrest).trans (Four.get_set_self ..), fun htrip => ?_, fun htrip hp => ?_, fun htrip hp => ?_, hlink,
        fun p hp hf => ?_, ?_, fun g hg => ⟨htouches.seqOther g hg, htouches.huntOther g hg⟩, htouches.tags, htouches.cal,
        htouches.store, htouches.cond, htouches.sections⟩
      · have htrip' : (s.restartSupervision.seq.get f).tripDrive = true := htrip
        rw [hend, if_pos htrip']
        exact Four.get_set_self ..
      · have htrip' : ¬ (s.restartSupervision.seq.get f).tripDrive = true := Bool.eq_false_iff.mp htrip
        have hp' : (s.restartSupervision.seq.get f).position = .closed := hp
        rw [hend, if_neg htrip', if_pos hp']
        exact Four.get_set_self ..
      · have htrip' : ¬ (s.restartSupervision.seq.get f).tripDrive = true := Bool.eq_false_iff.mp htrip
        have hp' : (s.restartSupervision.seq.get f).position ≠ .closed := hp
        rw [hend, if_neg htrip', if_neg hp']
        exact Four.get_set_self ..
      · exact devicesReturned_owner (t := s.link.devices) (congrArg Link.devices hlink ▸ hp) hf
      · rintro a rfl
        have htrip' : (s.restartSupervision.seq.get f).tripDrive = (s.seq.get f).tripDrive := rfl
        have hp' : (s.restartSupervision.seq.get f).position = (s.seq.get f).position := rfl
        rw [hend, htrip', hp']
        cases htrip : (s.seq.get f).tripDrive with
        | true => rfl
        | false =>
          by_cases hp : (s.seq.get f).position = .closed
          · simp only [hp, if_true, Bool.false_eq_true, if_false, ne_eq, not_true, and_false]
            rfl
          · simp only [hp, Bool.false_eq_true, if_false, ne_eq, not_false_eq_true, and_true, if_true]
            rfl
    · exact serve_onFeeder f h (onHunt_some (s := s.restartSupervision) hx)
    · exact serve_onFeeder f h ((onHunt_some (s := s.restartSupervision) hx).trans (if_pos hfinal))
    · exact serve_onFeeder f h ((onHunt_some (s := s.restartSupervision) hx).trans (if_neg (by rw [hrun]; nofun)))
    · exact serve_onFeeder f h (onHunt_none (s := s.restartSupervision) hnone)
    · exact serve_onFeeder f h (onHunt_none (s := s.restartSupervision) hnone)
    · exact serve_onFeeder f h (onHunt_none (s := s.restartSupervision) hnone)

end Sys2Proof.Machine

/-! The breaker in HUNT, the restore, and what reaches a hunt that runs (O54). -/

namespace Sys2Proof.Machine

/-! ## HUNT_OPEN (03 R66) -/

theorem State.huntOpen_opening {s : State} {f : Feeder} (hx : (s.seq.get f).state = .hunt .opening) : s.huntOpen f = (s, false) :=
  if_pos hx

theorem Seq.huntOpening_eq (r : Seq) (time : Nat) : r.huntOpening time = { r with
    tripDrive := true
    closeDrive := false
    closeFail := if r.closeDrive then none else r.closeFail
    state := .hunt .opening
    tripFail := match r.tripFail with
      | some n => some n
      | none => some time } := by
  unfold Seq.huntOpening
  cases r.tripFail <;> rfl

/-- HUNT_OPEN of a breaker with neither drive asserted. -/
theorem Seq.huntOpening_rested {r : Seq} (hclose : r.closeDrive = false) (htrip : r.tripFail = none) (time : Nat) :
    r.huntOpening time = { r with tripDrive := true, state := .hunt .opening, tripFail := some time } := by
  cases r
  cases hclose
  cases htrip
  rfl

/-! ## Position changes and timers in HUNT (03 R64 to R66) -/

section
variable {f : Feeder} {s : State} {h : Hunt} (hh : s.hunts.get f = some h)
include hh

theorem State.openReport_isolating (hp : h.phase = .isolatingOpen) : s.openReport f = s.takeStep f h := by
  unfold State.openReport
  simp only [hh, hp]

theorem State.openReport_restoring (hp : h.phase = .restoringOpen) : s.openReport f = s.beginRestore f h := by
  unfold State.openReport
  simp only [hh, hp]

theorem State.openReport_restoreTrip (hp : h.phase = .restoringClose) :
    s.openReport f = s.endHunt f (.abandoned .position) (some (.breaker .restoreTrip)) := by
  unfold State.openReport
  simp only [hh, hp]

theorem State.closedReport_test (hp : h.phase = .testingClose) : s.closedReport f =
    s.putHunt f (some { h with phase := .testingHold, hold := some (s.activeGroup f).testHoldTime }) := by
  unfold State.closedReport
  simp only [hh, hp]

theorem State.closedReport_restore (hp : h.phase = .restoringClose) : s.closedReport f = s.endHunt f h.goal none := by
  unfold State.closedReport
  simp only [hh, hp]

end

theorem Hunt.goal_eq (h : Hunt) : h.goal = if faultedSection h = none then .cleared else .found := by
  unfold Hunt.goal
  have hsame : h.faulted = faultedSection h := rfl
  rw [hsame]
  cases faultedSection h <;> rfl

/-- The breaker of a feeder seen OPEN, its state being what it was (03 R46). -/
theorem exec_seenOpen {f : Feeder} {s : State} (hp : (s.seq.get f).position ≠ .opened) :
    exec (.decodedPositionChange f ⟨false, true⟩) s = .next (State.seenOpen
      (State.putSeq { s with contacts := s.contacts.set f ⟨false, true⟩ } f { s.seq.get f with position := .opened }) f) := by
  rw [exec_positionChange (p := .opened) rfl fun he => hp he.symm, State.positionChange, State.modSeq_eq _ rfl]

theorem exec_seenClosed {f : Feeder} {s : State} (hp : (s.seq.get f).position ≠ .closed) :
    exec (.decodedPositionChange f ⟨true, false⟩) s = .next (State.seenClosed
      (State.putSeq { s with contacts := s.contacts.set f ⟨true, false⟩ } f { s.seq.get f with position := .closed }) f) := by
  rw [exec_positionChange (p := .closed) rfl fun he => hp he.symm, State.positionChange, State.modSeq_eq _ rfl]

theorem State.seenOpen_hunt {f : Feeder} {s : State} {r : Seq} {x : HuntService} (hx : r.state = .hunt x) :
    (s.putSeq f r).seenOpen f = (s.putSeq f r).huntSeenOpen f x := by
  unfold State.seenOpen
  simp only [State.putSeq_seq, Four.get_set_self, hx]

theorem State.seenClosed_hunt {f : Feeder} {s : State} {r : Seq} {x : HuntService} (hx : r.state = .hunt x) :
    (s.putSeq f r).seenClosed f = (s.putSeq f r).huntSeenClosed f x := by
  unfold State.seenClosed
  simp only [State.putSeq_seq, Four.get_set_self, hx]

theorem exec_huntSeenOpen {f : Feeder} {s : State} {x : HuntService} (hx : (s.seq.get f).state = .hunt x)
    (hp : (s.seq.get f).position ≠ .opened) : exec (.decodedPositionChange f ⟨false, true⟩) s = .next (State.huntSeenOpen
      (State.putSeq { s with contacts := s.contacts.set f ⟨false, true⟩ } f { s.seq.get f with position := .opened }) f x) :=
  (exec_seenOpen hp).trans (congrArg Host.Outcome.next (State.seenOpen_hunt hx))

theorem exec_huntSeenClosed {f : Feeder} {s : State} {x : HuntService} (hx : (s.seq.get f).state = .hunt x)
    (hp : (s.seq.get f).position ≠ .closed) : exec (.decodedPositionChange f ⟨true, false⟩) s = .next (State.huntSeenClosed
      (State.putSeq { s with contacts := s.contacts.set f ⟨true, false⟩ } f { s.seq.get f with position := .closed }) f x) :=
  (exec_seenClosed hp).trans (congrArg Host.Outcome.next (State.seenClosed_hunt hx))

section
variable (s : State) (f : Feeder) (r : Seq)

theorem State.huntSeenClosed_test : (s.putSeq f r).huntSeenClosed f .testClosing =
    (s.putSeq f { r with closeDrive := false, closeFail := none, state := .hunt .testClosed }).closedReport f :=
  congrArg (State.closedReport · f) (State.modSeq_putSeq ..)

theorem State.huntSeenClosed_restore : (s.putSeq f r).huntSeenClosed f .restoreClosing =
    (s.putSeq f { r with closeDrive := false, closeFail := none, state := .hunt .idle }).closedReport f :=
  congrArg (State.closedReport · f) (State.modSeq_putSeq ..)

theorem State.huntSeenOpen_opening : (s.putSeq f r).huntSeenOpen f .opening =
    (s.putSeq f { r with tripDrive := false, tripFail := none, state := .hunt .idle, huntTest := false }).openReport f :=
  congrArg (State.openReport · f) (State.modSeq_putSeq ..)

end

/-- A change to OPEN that no hunt request asked for (03 R66). -/
theorem State.unaskedOpen_putSeq {f : Feeder} {s : State} {h : Hunt} (hh : s.hunts.get f = some h) (r : Seq) :
    (s.putSeq f r).unaskedOpen f = State.give (State.give
      ((huntEnded s f h (.abandoned .position) (some (.breaker .unaskedOpen))).putSeq f { stopped r with
        state := .lockout .externalOpen, tripElement := none, closeDrive := false })
      (.feeder f) (.lockout .externalOpen r.shots)) (.feeder f) (.positionAlarm .unaskedOpen) := by
  have hended : huntEnded (s.putSeq f r) f h (.abandoned .position) (some (.breaker .unaskedOpen)) =
      (huntEnded s f h (.abandoned .position) (some (.breaker .unaskedOpen))).putSeq f r := rfl
  rw [State.unaskedOpen, State.closeHunt_eq (s := s.putSeq f r) hh, hended, State.modSeq_putSeq, State.lockout_putSeq]
  rfl

theorem State.unaskedClose_putSeq {f : Feeder} {s : State} {h : Hunt} (hh : s.hunts.get f = some h) (r : Seq) :
    (s.putSeq f r).unaskedClose f = State.give
      ((huntEnded s f h (.abandoned .position) (some (.breaker .unaskedClose))).putSeq f { r with
        state := .closed, shots := 0, tripElement := none, window := none, huntTest := false })
      (.feeder f) (.positionAlarm .unaskedClose) := by
  have hended : huntEnded (s.putSeq f r) f h (.abandoned .position) (some (.breaker .unaskedClose)) =
      (huntEnded s f h (.abandoned .position) (some (.breaker .unaskedClose))).putSeq f r := rfl
  rw [State.unaskedClose, State.closeHunt_eq (s := s.putSeq f r) hh, hended, State.modSeq_putSeq]
  rfl

theorem State.tripFails_hunt {f : Feeder} {s : State} {h : Hunt} {r : Seq} (hh : s.hunts.get f = some h) (hr : r = s.seq.get f)
    (hx : r.state = .hunt .opening) : s.tripFails f = State.give
      ((huntEnded s f h (.abandoned .position) (some (.breaker .breakerFail))).putSeq f { r with
        state := .breakerFail .protection, tripFail := none, huntTest := false }) (.feeder f) (.breakerFail .protection) := by
  rw [hr] at hx
  unfold State.tripFails
  simp only [hx]
  rw [State.closeHunt_eq hh, State.breakerFails, State.modSeq_eq (s := huntEnded s f h _ _) (r := r) _ hr]

theorem State.closeFails_hunt {f : Feeder} {s : State} {h : Hunt} {r : Seq} (hh : s.hunts.get f = some h) (hr : r = s.seq.get f)
    (hx : r.state = .hunt .testClosing ∨ r.state = .hunt .restoreClosing) : s.closeFails f = State.give (State.give
      ((huntEnded s f h (.abandoned .position) (some (.breaker .closeFail))).putSeq f { stopped r with
        state := .lockout .closeFail, tripElement := none, closeDrive := false })
      (.feeder f) (.lockout .closeFail r.shots)) (.feeder f) (.positionAlarm .closeFail) := by
  have hlost : s.closeFails f = (s.closeHunt f (.abandoned .position) (some (.breaker .closeFail))).closeLost f := by
    rw [hr] at hx
    unfold State.closeFails
    rcases hx with hx | hx <;> simp only [hx]
  rw [hlost, State.closeHunt_eq hh, State.closeLost, State.modSeq_eq (s := huntEnded s f h _ _) (r := r) _ hr,
    State.lockout_putSeq]
  rfl

/-! ## The hold timer (08 R150) -/

theorem exec_holdTimerExpiry (f : Feeder) (s : State) : exec (.holdTimerExpiry f) s = .next (s.holdExpires f) := rfl

theorem markPending_eq (status : CandidateStatus) (test : Nat → Bool) (cs : List Candidate) : markPending status test cs =
    cs.map (fun c => if c.status = .pending ∧ test c.number = true then ⟨c.number, status⟩ else c) := rfl

theorem State.holdExpires_idle {f : Feeder} {s : State} {h : Hunt} (hh : s.hunts.get f = some h)
    (hno : h.phase ≠ .testingHold ∨ h.hold ≠ some 0) : s.holdExpires f = s := by
  unfold State.holdExpires
  simp only [hh]
  exact if_neg fun ⟨hp, ht⟩ => hno.elim (· hp) (· ht)

theorem State.holdExpires_of {f : Feeder} {s : State} {h : Hunt} {m : Nat} (hh : s.hunts.get f = some h) (hp : h.phase = .testingHold)
    (ht : h.hold = some 0) (hm : h.currentSection = some m) : s.holdExpires f = (s.putHunt f (some { h with
      candidates := h.candidates.map (fun (c : Candidate) =>
        if c.status = CandidateStatus.pending ∧ c.number ∈ testSpan (s.sections.get f) m then ⟨c.number, .healthy⟩ else c)
      current := none
      hold := none
      phase := .isolatingOpen })).askOpen f := by
  have hmark : markPending .healthy (testSpan (s.sections.get f) m).contains h.candidates = h.candidates.map (fun (c : Candidate) =>
      if c.status = CandidateStatus.pending ∧ c.number ∈ testSpan (s.sections.get f) m then ⟨c.number, .healthy⟩ else c) :=
    List.map_congr_left fun c _ => ite_of_iff (and_congr_right fun _ => List.contains_iff_mem) rfl rfl
  unfold State.holdExpires
  simp only [hh, hm, hmark]
  exact if_pos ⟨hp, ht⟩

section
variable {f : Feeder} {s : State} (hx : (s.seq.get f).state ≠ .hunt .opening)
include hx

theorem State.askOpen_opened (hp : (s.seq.get f).position = .opened) :
    s.askOpen f = (s.putSeq f (s.seq.get f).huntIdle).openReport f := by
  unfold State.askOpen
  rw [State.huntOpen_eq rfl hx, if_pos hp]

theorem State.askOpen_unopened (hp : (s.seq.get f).position ≠ .opened) :
    s.askOpen f = s.putSeq f ((s.seq.get f).huntOpening (tripTime s f)) := by
  unfold State.askOpen
  rw [State.huntOpen_eq rfl hx, if_neg hp]

end

/-! ## The restore (08 R152 to R154) -/

theorem Device.owned_iff {f : Feeder} {d : Device} : d.owned f = true ↔ d.feeder = f ∧ d.owner = .hunt := decide_eq_true_iff

/-- A hunt-owned device named OPEN is closed again (08 R152, R153). -/
theorem closedAgain_eq (f : Feeder) (d : Device) : (if d.owned f ∧ d.desired = some .opened then d.huntSet .closed else d) =
    if d.feeder = f ∧ d.owner = .hunt ∧ d.desired = some .opened then { d with desired := some .closed, posHeld := false } else d := by
  refine ite_congr (propext (by rw [Device.owned_iff, and_assoc])) (fun hd => ?_) fun _ => rfl
  obtain ⟨-, howner, -⟩ := hd
  rw [Device.huntSet, ← howner]

theorem restoreFound_eq (f : Feeder) (a : Nat) (t : Table Device) : restoreFound f a t = t.map (fun p => (p.1,
    if p.1 = a then { p.2 with desired := some .opened, owner := .hunt, posHeld := false }
    else if p.2.feeder = f ∧ p.2.owner = .hunt ∧ p.2.desired = some .opened then
      { p.2 with desired := some .closed, posHeld := false }
    else p.2)) :=
  List.map_congr_left fun p _ => congrArg (Prod.mk p.1) (ite_of_iff Iff.rfl rfl (closedAgain_eq f p.2))

theorem restoreCleared_eq (f : Feeder) (t : Table Device) : restoreCleared f t = t.map (fun p => (p.1,
    if p.2.feeder = f ∧ p.2.owner = .hunt ∧ p.2.desired = some .opened then { p.2 with desired := some .closed, posHeld := false }
    else p.2)) :=
  List.map_congr_left fun p _ => congrArg (Prod.mk p.1) (closedAgain_eq f p.2)

theorem pick_closing (f : Feeder) (t : Table Device) : t.pick (fun _ d => d.owned f && decide (d.desired = some .closed)) =
    (t.filter (fun p => decide (p.2.feeder = f ∧ p.2.owner = .hunt ∧ p.2.desired = some .closed))).map (fun p => p.1) := by
  refine congrArg (List.map Prod.fst) (List.filter_congr fun p _ => Bool.eq_iff_iff.mpr ?_)
  rw [Bool.and_eq_true, Device.owned_iff, decide_eq_true_iff, decide_eq_true_iff, and_assoc]

theorem State.awaitRestore_eq (s : State) (f : Feeder) (h : Hunt) : s.awaitRestore f h =
    if allMatch s.link.devices h.named then (s.putHunt f (some h)).askRestoreClose f h else s.putHunt f (some h) := rfl

section
variable {s : State} {f : Feeder} {h : Hunt}

theorem State.beginRestore_headless {n : Nat} (hn : faultedSection h = some n) (hhead : nearestHead (s.sections.get f) n = none) :
    s.beginRestore f h = s.endHunt f .found none := by
  have hn : h.faulted = some n := hn
  unfold State.beginRestore
  simp only [hn, hhead]

theorem State.beginRestore_found {n a : Nat} (hn : faultedSection h = some n) (hhead : nearestHead (s.sections.get f) n = some a) :
    s.beginRestore f h = (s.putDevices (restoreFound f a s.link.devices)).awaitRestore f { h with
      phase := .restoringDevices
      isolating := some a
      named := sortNums (a :: (restoreFound f a s.link.devices).pick (fun _ d => d.owned f && decide (d.desired = some .closed))) } := by
  have hn : h.faulted = some n := hn
  unfold State.beginRestore
  simp only [hn, hhead]

theorem State.beginRestore_cleared (hn : faultedSection h = none) : s.beginRestore f h =
    (s.putDevices (restoreCleared f s.link.devices)).awaitRestore f { h with
      phase := .restoringDevices, current := none, named := (restoreCleared f s.link.devices).pick (fun _ d => d.owned f) } := by
  have hn : h.faulted = none := hn
  unfold State.beginRestore
  simp only [hn]

theorem State.askRestoreClose_blocked {c : Cause} (hb : huntBlocker s f = some c) :
    s.askRestoreClose f h = s.endHunt f h.goal (some (.cause c)) := by
  rw [huntBlocker_eq] at hb
  unfold State.askRestoreClose
  simp only [hb]

theorem State.askRestoreClose_issues (hb : huntBlocker s f = none) (hx : (s.seq.get f).state = .hunt .idle)
    (hp : (s.seq.get f).position = .opened) : s.askRestoreClose f h = { huntCloseIssued s f .restoreClosing false with
      hunts := s.hunts.set f (some { h with phase := .restoringClose }) } := by
  have hclose := State.huntClose_opened (x := .restoreClosing) hx hb hp
  rw [huntBlocker_eq] at hb
  unfold State.askRestoreClose
  simp only [hb, hclose]
  rfl

theorem State.askRestoreClose_unopened (hb : huntBlocker s f = none) (hx : (s.seq.get f).state = .hunt .idle)
    (hp : (s.seq.get f).position ≠ .opened) :
    s.askRestoreClose f h = s.endHunt f (.abandoned .position) (some (.breaker .notOpen)) := by
  have hclose := State.huntClose_position (x := .restoreClosing) hx hb hp
  rw [huntBlocker_eq] at hb
  unfold State.askRestoreClose
  simp only [hb, hclose]

/-! ## Tellings (08 R156, R157) -/

variable (hh : s.hunts.get f = some h)
include hh

theorem State.huntCause_isolating (c : Cause) (hp : h.phase = .isolatingOpen ∨ h.phase = .isolatingDevices) :
    s.huntCause f c = s.endHunt f (.abandoned .blocked) (some (.cause c)) := by
  unfold State.huntCause
  rcases hp with hp | hp <;> simp only [hh, hp]

theorem State.huntCause_testing (c : Cause) (hp : h.phase = .testingClose ∨ h.phase = .testingHold) :
    s.huntCause f c = (s.huntOpen f).1.endHunt f (.abandoned .blocked) (some (.cause c)) := by
  unfold State.huntCause
  rcases hp with hp | hp <;> simp only [hh, hp]

theorem State.huntCause_other (c : Cause) (hp : h.phase ∉ [HuntPhase.isolatingOpen, .isolatingDevices, .testingClose, .testingHold]) :
    s.huntCause f c = s := by
  unfold State.huntCause
  simp only [hh]
  cases hx : h.phase <;> simp [hx] at hp ⊢

end

/-- The hunt record whose PENDING candidates the exclusion set skips (08 R157). -/
def Hunt.marked (h : Hunt) (t : Table Section) (x : Exclusion) : Hunt := { h with
  candidates := h.candidates.map (fun (c : Candidate) =>
    if c.status = CandidateStatus.pending ∧ skipped t x c.number = true then ⟨c.number, .skipped⟩ else c) }

theorem Exclusion.touches_iff {x : Exclusion} {ns : List Nat} :
    x.touches ns = true ↔ x = .wholeFeeder ∨ ∃ xs, x = .sections xs ∧ ∃ m ∈ xs, m ∈ ns := by
  cases x with
  | wholeFeeder => simp [Exclusion.touches]
  | sections xs => simp [Exclusion.touches, and_comm]

section
variable {s : State} {f : Feeder} {h : Hunt} (hh : s.hunts.get f = some h)
include hh

theorem State.huntExclusion_isolatingOpen (hp : h.phase = .isolatingOpen) :
    s.huntExclusion f = s.putHunt f (some (h.marked (s.sections.get f) (s.cond.get f).exclusion)) := by
  cases h
  cases hp
  unfold State.huntExclusion
  simp only [hh]
  rfl

theorem State.huntExclusion_isolatingDevices (hp : h.phase = .isolatingDevices) :
    s.huntExclusion f = s.takeStep f (h.marked (s.sections.get f) (s.cond.get f).exclusion) := by
  cases h
  cases hp
  unfold State.huntExclusion
  simp only [hh]
  rfl

theorem State.huntExclusion_testing {n : Nat} (hp : h.phase = .testingClose ∨ h.phase = .testingHold) (hn : h.currentSection = some n) :
    s.huntExclusion f =
      if (skipped (s.sections.get f) (s.cond.get f).exclusion n
        || (s.cond.get f).exclusion.touches (energised (s.sections.get f) s.link.devices n)) = true then
        (s.putHunt f (some { h.marked (s.sections.get f) (s.cond.get f).exclusion with
          hold := none, current := none, phase := .isolatingOpen })).askOpen f
      else s.putHunt f (some (h.marked (s.sections.get f) (s.cond.get f).exclusion)) := by
  cases h
  rcases hp with hp | hp
  all_goals
    cases hp
    unfold State.huntExclusion
    simp only [hh, hn]
    rfl

theorem State.huntExclusion_other (hp : h.phase ∉ [HuntPhase.isolatingOpen, .isolatingDevices, .testingClose, .testingHold]) :
    s.huntExclusion f = s := by
  unfold State.huntExclusion
  simp only [hh]
  cases hx : h.phase <;> simp [hx] at hp ⊢

end

theorem Table.ackClosed_iff {d : Table Device} {a : Nat} : d.ackClosed a = true ↔ ∃ r, d.find a = some r ∧ r.ack = some .closed := by
  unfold Table.ackClosed
  cases hd : d.find a <;> simp

theorem Section.fed_iff (d : Table Device) (y : Section) : y.fed d = true ↔
    y.head = none ∨ ∃ a r, y.head = some a ∧ d.find a = some r ∧ r.ack = some .closed := by
  unfold Section.fed
  cases y.head with
  | none => simp
  | some a => simpa using Table.ackClosed_iff

/-- What a test energises is reached from what it feeds at once (08 R145, R148). -/
theorem energised_leastDown (t : Table Section) (d : Table Device) (n : Nat) :
    leastDown t (fun m => m ∈ testSpan t n ∨ m ∈ ancestors t n ∨ ∃ y, (m, y) ∈ t ∧ y.parent = 0
        ∧ (y.head = none ∨ ∃ a r, y.head = some a ∧ d.find a = some r ∧ r.ack = some .closed))
      (fun y => y.head = none ∨ ∃ a r, y.head = some a ∧ d.find a = some r ∧ r.ack = some .closed) (energised t d n) := by
  refine spread_leastDown (fun m => ?_) (Section.fed_iff d)
  rw [mem_sortNums, List.mem_append, List.mem_append, Table.mem_pick, or_assoc]
  refine or_congr_right (or_congr_right (exists_congr fun y => and_congr_right fun _ => ?_))
  rw [Bool.and_eq_true, decide_eq_true_iff, Section.fed_iff]

/-- Settles O54. -/
theorem huntServesTheBreaker : Obligations.HuntServesTheBreaker := by
  refine ⟨?_, fun s f h => ⟨fun n hn hhead => State.beginRestore_headless hn hhead, ?_, ?_, fun c hc => ?_,
    fun hb hx => ⟨fun hp => State.askRestoreClose_issues hb hx hp, fun hp => State.askRestoreClose_unopened hb hx hp⟩⟩,
    fun s f h hh => ⟨fun c hp => State.huntCause_isolating hh c hp, fun c hp => State.huntCause_testing hh c hp,
      fun c hp => State.huntCause_other hh c hp, ?_⟩, ?_⟩
  · rintro f s h r opened closed hh hrun rfl rfl rfl
    refine ⟨fun hx hph hp => ?_, fun hx hph hp => ?_, fun m h1 hph ht hm hx h1eq => ⟨fun hp hclose htrip => ?_, fun hp => ?_⟩,
      fun hno => congrArg _ (State.holdExpires_idle hh hno), ?_, fun hx hp => ?_, fun hx ht => ?_, fun hx ht => ?_, fun hx hp => ?_,
      fun hx hp => ?_⟩
    · rw [exec_huntSeenClosed hx hp, State.huntSeenClosed_test]
      exact congrArg Host.Outcome.next (State.closedReport_test (h := h) hh hph)
    · rw [exec_huntSeenClosed hx hp, State.huntSeenClosed_restore, ← Hunt.goal_eq]
      exact congrArg Host.Outcome.next (State.closedReport_restore (h := h) hh hph)
    · have hstate : ((s.putHunt f (some h1)).seq.get f).state ≠ .hunt .opening := fun he => by
        cases hx.symm.trans he
      rw [exec_holdTimerExpiry, State.holdExpires_of hh hph ht hm, ← h1eq, ← Seq.huntOpening_rested hclose htrip]
      exact congrArg Host.Outcome.next (State.askOpen_unopened hstate hp)
    · have hstate : ((s.putHunt f (some h1)).seq.get f).state ≠ .hunt .opening := fun he => by
        cases hx.symm.trans he
      rw [exec_holdTimerExpiry, State.holdExpires_of hh hph ht hm, ← h1eq, State.askOpen_opened hstate hp]
      exact congrArg Host.Outcome.next (State.openReport_isolating (h := h1) (Four.get_set_self ..) (h1eq ▸ rfl))
    · rintro hx hp s1 rfl
      rw [exec_huntSeenOpen hx hp, State.huntSeenOpen_opening]
      exact ⟨fun hph => congrArg Host.Outcome.next (State.openReport_isolating (h := h) hh hph),
        fun hph => congrArg Host.Outcome.next (State.openReport_restoring (h := h) hh hph),
        fun hph => congrArg Host.Outcome.next (State.openReport_restoreTrip (h := h) hh hph)⟩
    · rw [exec_huntSeenClosed hx hp]
      rfl
    · refine congrArg _ ((if_pos ht).trans ?_)
      exact State.tripFails_hunt hh rfl hx
    · refine congrArg _ ((if_pos ht).trans ?_)
      exact State.closeFails_hunt hh rfl hx
    · have hasked {x : HuntService} (hx : (s.seq.get f).state = .hunt x) (hne : x ≠ .opening) :
          exec (.decodedPositionChange f ⟨false, true⟩) s = .next (State.unaskedOpen
            (State.putSeq { s with contacts := s.contacts.set f ⟨false, true⟩ } f { s.seq.get f with position := .opened }) f) := by
        rw [exec_huntSeenOpen hx hp]
        cases x with
        | opening => exact absurd rfl hne
        | _ => rfl
      have hunasked := State.unaskedOpen_putSeq (s := { s with contacts := s.contacts.set f ⟨false, true⟩ }) hh
        { s.seq.get f with position := .opened }
      rcases hx with hx | hx | hx | hx <;> rw [hasked hx nofun, hunasked] <;> rfl
    · have hunasked := State.unaskedClose_putSeq (s := { s with contacts := s.contacts.set f ⟨true, false⟩ }) hh
        { s.seq.get f with position := .closed }
      rcases hx with hx | hx
      · rw [exec_huntSeenClosed hx hp]
        exact congrArg _ hunasked
      · rw [exec_huntSeenClosed hx hp]
        exact congrArg _ hunasked
  · rintro n a h1 s1 hn hhead hs1 h1eq hnamed
    have hdevices : s1.link.devices = restoreFound f a s.link.devices := by
      rw [hs1, restoreFound_eq]
    rw [hdevices, ← pick_closing] at hnamed
    rw [hnamed] at h1eq
    have hbegin := State.beginRestore_found hn hhead
    rw [← h1eq, State.awaitRestore_eq] at hbegin
    have hstate : (s.putDevices (restoreFound f a s.link.devices)).putHunt f (some h1) = s1 := by
      rw [restoreFound_eq, hs1]
      rfl
    rw [hbegin, hstate, hdevices]
    exact ⟨fun hstand => if_pos (allMatch_iff.mpr hstand), fun hno => if_neg (mt allMatch_iff.mp hno)⟩
  · rintro h1 s1 hn hs1 h1eq
    have hdevices : s1.link.devices = restoreCleared f s.link.devices := by
      rw [hs1, restoreCleared_eq]
    rw [hdevices] at h1eq
    have hbegin := State.beginRestore_cleared (s := s) (f := f) hn
    have hpick : h1 = { h with
        phase := .restoringDevices, current := none, named := (restoreCleared f s.link.devices).pick (fun _ d => d.owned f) } := h1eq
    rw [← hpick, State.awaitRestore_eq] at hbegin
    have hstate : (s.putDevices (restoreCleared f s.link.devices)).putHunt f (some h1) = s1 := by
      rw [restoreCleared_eq, hs1]
      rfl
    rw [hbegin, hstate, hdevices]
    exact ⟨fun hstand => if_pos (allMatch_iff.mpr hstand), fun hno => if_neg (mt allMatch_iff.mp hno)⟩
  · rw [State.askRestoreClose_blocked hc, Hunt.goal_eq]
  · rintro t x h1 rfl rfl h1eq
    have hmarked : h1 = h.marked (s.sections.get f) (s.cond.get f).exclusion := h1eq
    rw [hmarked]
    refine ⟨fun hp => State.huntExclusion_isolatingOpen hh hp, fun hp => State.huntExclusion_isolatingDevices hh hp,
      fun n hp hn => ⟨fun hstop => ?_, fun hskip hkeep => ?_, energised_leastDown ..⟩, fun hp => State.huntExclusion_other hh hp⟩
    · refine (State.huntExclusion_testing hh hp hn).trans (if_pos ?_)
      rwa [Bool.or_eq_true, Exclusion.touches_iff]
    · refine (State.huntExclusion_testing hh hp hn).trans (if_neg ?_)
      rw [Bool.or_eq_true, Exclusion.touches_iff]
      rintro (htrue | hwhole | ⟨ns, hns, m, hm, hlive⟩)
      · rw [hskip] at htrue
        cases htrue
      · rw [hwhole] at hskip
        cases hskip
      · exact hkeep ns hns m hm hlive
  · rintro s f r rfl
    refine ⟨State.huntOpen_opening, fun hx hp => ?_, fun hx hp => ?_⟩
    · rw [State.huntOpen_eq rfl hx, if_pos hp]
      rfl
    · rw [State.huntOpen_eq rfl hx, if_neg hp]
      exact congrArg (fun r => (s.putSeq f r, false)) (Seq.huntOpening_eq ..)

end Sys2Proof.Machine

/-! The warm reset by the nWARM pin, block by block (O15). -/

namespace Sys2Proof.Machine

/-! ## The calendar while a reset is applied (05 R109) -/

/-- The ticks of a reset one after another. -/
def Calendar.ticked (n : Nat) (c : Calendar) : Calendar := Nat.repeat (fun c => c.tick.1) n c

theorem Calendar.ticked_succ (n : Nat) (c : Calendar) : c.ticked (n + 1) = c.tick.1.ticked n := by
  induction n with
  | zero => rfl
  | succ n ih => exact congrArg (fun c : Calendar => c.tick.1) ih

theorem Calendar.keepTime_ticked (n : Nat) (c : Calendar) : (Calendar.keepTime n c).1 = c.ticked n := by
  induction n generalizing c with
  | zero => rfl
  | succ n ih => exact (ih c.tick.1).trans (c.ticked_succ n).symm

/-- A property of some tick of several. -/
theorem exists_tick_succ (p : Calendar → Prop) (n : Nat) (c : Calendar) :
    (∃ m < n + 1, p (c.ticked m)) ↔ p c ∨ ∃ m < n, p (c.tick.1.ticked m) := by
  constructor
  · rintro ⟨m, hm, hp⟩
    cases m with
    | zero => exact .inl hp
    | succ m => exact .inr ⟨m, by omega, c.ticked_succ m ▸ hp⟩
  · rintro (hp | ⟨m, hm, hp⟩)
    · exact ⟨0, Nat.succ_pos n, hp⟩
    · exact ⟨m + 1, by omega, (c.ticked_succ m).symm ▸ hp⟩

theorem Carry.join_isSome (d e : Option Carry) : (Carry.join d e).isSome = true ↔ d.isSome = true ∨ e.isSome = true := by
  cases d <;> cases e <;> simp [Carry.join]

theorem Carry.join_wraps (d e : Option Carry) : ((Carry.join d e).map (·.yearWrap)).getD false = true ↔
    (d.map (·.yearWrap)).getD false = true ∨ (e.map (·.yearWrap)).getD false = true := by
  cases d <;> cases e <;> simp [Carry.join]

theorem Calendar.keepTime_isSome (n : Nat) (c : Calendar) :
    (Calendar.keepTime n c).2.isSome = true ↔ ∃ m < n, (c.ticked m).tick.2.isSome = true := by
  induction n generalizing c with
  | zero => exact iff_of_false nofun (by rintro ⟨m, hm, -⟩; omega)
  | succ n ih =>
    rw [exists_tick_succ (fun c => c.tick.2.isSome = true), ← ih c.tick.1]
    exact Carry.join_isSome ..

theorem Calendar.keepTime_wraps (n : Nat) (c : Calendar) : ((Calendar.keepTime n c).2.map (·.yearWrap)).getD false = true ↔
    ∃ m < n, ((c.ticked m).tick.2.map (·.yearWrap)).getD false = true := by
  induction n generalizing c with
  | zero => exact iff_of_false nofun (by rintro ⟨m, hm, -⟩; omega)
  | succ n ih =>
    rw [exists_tick_succ (fun c => (c.tick.2.map (·.yearWrap)).getD false = true), ← ih c.tick.1]
    exact Carry.join_wraps ..

/-- The fields of the calendar that no tick moves. -/
def Calendar.untimed (c : Calendar) : Four (Option Window) × Pair (Option Declaration) × Table Entry :=
  (c.windows, c.declarations, c.schedule)

theorem Calendar.tick_untimed (c : Calendar) : c.tick.1.untimed = c.untimed := by
  unfold Calendar.tick
  split <;> rfl

theorem Calendar.keepTime_untimed (n : Nat) (c : Calendar) : (Calendar.keepTime n c).1.untimed = c.untimed := by
  induction n generalizing c with
  | zero => rfl
  | succ n ih => exact (ih c.tick.1).trans c.tick_untimed

/-! ## What enters the pending notices -/

theorem mem_enterNotice {sc : Scope} {d : Detail} {ns : List Notice} {n : Notice} (h : n ∈ enterNotice sc d ns) : n.detail = d ∨ n ∈ ns := by
  induction ns with
  | nil => exact .inl (List.mem_singleton.mp h ▸ rfl)
  | cons x rest ih =>
    unfold enterNotice at h
    split at h
    · rcases List.mem_cons.mp h with rfl | h
      · exact .inl rfl
      · exact .inr h
    · split at h
      · rcases List.mem_cons.mp h with rfl | h
        · exact .inl rfl
        · exact .inr (List.mem_cons_of_mem x h)
      · rcases List.mem_cons.mp h with rfl | h
        · exact .inr (List.mem_cons_self ..)
        · exact (ih h).imp_right (List.mem_cons_of_mem x)

/-- Notices of some kinds, and nothing else but the line, are new to the Attention Unit. -/
def Attention.gains (kinds : NoticeKind → Prop) (a b : Attention) : Prop :=
  b = { a with notices := b.notices, line := b.line } ∧ ∀ n ∈ b.notices, kinds n.detail.kind ∨ n ∈ a.notices

section
variable {kinds : NoticeKind → Prop} {a b : Attention}

theorem Attention.gains.refl : a.gains kinds a := ⟨rfl, fun _ => .inr⟩

theorem Attention.gains.give (h : a.gains kinds b) (sc : Scope) {d : Detail} (hd : kinds d.kind) : a.gains kinds (b.give sc d) := by
  obtain ⟨hrest, hnotices⟩ := h
  unfold Attention.give
  split
  · exact ⟨hrest, hnotices⟩
  · refine ⟨?_, fun n hn => ?_⟩
    · rw [hrest]
      rfl
    · rcases mem_enterNotice hn with rfl | hn
      · exact .inl hd
      · exact hnotices n hn

theorem Attention.gains.fold {g : Attention → Feeder → Attention} (hg : ∀ b f, a.gains kinds b → a.gains kinds (g b f))
    (h : a.gains kinds b) (fs : List Feeder) : a.gains kinds (fs.foldl g b) := by
  induction fs generalizing b with
  | nil => exact h
  | cons f rest ih => exact ih (hg b f h)

end

/-- The kinds of notice that a warm reset can leave pending (04 R81, 06 R125). -/
def NoticeKind.ofReset (k : NoticeKind) : Prop := k = .levelChange ∨ k = .tagExpired

/-! ## The hunts that ran (08 R162) -/

/-- A hunt record after a warm reset. -/
def Hunt.reset (h : Hunt) : Hunt := if h.phase.final then h else h.close (.abandoned .reset) none

theorem State.warmHunt_eq (s : State) (f : Feeder) : s.warmHunt f = { s with
    hunts := s.hunts.set f ((s.hunts.get f).map Hunt.reset)
    link := { s.link with devices := if s.huntRuns f then returnDevices f none s.link.devices else s.link.devices } } := by
  unfold State.warmHunt State.huntRuns
  cases hh : s.hunts.get f with
  | none =>
    have hsame : s.hunts.set f none = s.hunts := hh ▸ Four.set_get s.hunts f
    simp [hsame]
  | some h =>
    dsimp only
    by_cases hfinal : h.phase.final = true
    · have hsame : s.hunts.set f (some h) = s.hunts := hh ▸ Four.set_get s.hunts f
      simp [Hunt.reset, hfinal, hsame]
    · simp only [Hunt.reset, Option.map_some, Bool.eq_false_iff.mpr hfinal]
      rfl

/-- A device that a hunt that ran has handed back. -/
def Device.handedBack (runs : Feeder → Bool) (d : Device) : Device :=
  if d.owner = .hunt ∧ runs d.feeder = true then d.returned false else d

theorem handedBack_owned {runs : Feeder → Bool} {f : Feeder} {d : Device} (hf : d.feeder = f) :
    (if runs f then (if d.owned f then d.returned false else d) else d) = d.handedBack runs := by
  unfold Device.handedBack
  rw [hf]
  cases hr : runs f with
  | false => simp
  | true =>
    have howned : d.owned f = true ↔ d.owner = .hunt ∧ true = true := by
      rw [Device.owned_iff]
      exact ⟨fun h => ⟨h.2, rfl⟩, fun h => ⟨hf, h.1⟩⟩
    exact (if_pos rfl).trans (ite_of_iff howned rfl rfl)

theorem State.foldl_warmHunt {fs : List Feeder} (hn : fs.Nodup) (s : State) : fs.foldl State.warmHunt s = { s with
    hunts := fs.foldl (fun h f => h.set f ((h.get f).map Hunt.reset)) s.hunts
    link := { s.link with devices := s.link.devices.map (fun p => (p.1,
      if p.2.feeder ∈ fs then p.2.handedBack s.huntRuns else p.2)) } } := by
  induction fs generalizing s with
  | nil =>
    have hsame : s.link.devices.map (fun p => (p.1, if p.2.feeder ∈ ([] : List Feeder) then p.2.handedBack s.huntRuns else p.2)) =
        s.link.devices := by simp
    rw [hsame]
    rfl
  | cons f rest ih =>
    obtain ⟨hf, hrest⟩ := List.nodup_cons.mp hn
    have hruns (g : Feeder) (hg : g ≠ f) : (s.warmHunt f).huntRuns g = s.huntRuns g := by
      unfold State.huntRuns
      rw [((Touches.refl f s).warmHunt).huntOther g hg]
    have hone : (s.warmHunt f).link.devices = s.link.devices.map (fun p => (p.1,
        if s.huntRuns f then (if p.2.owned f then p.2.returned false else p.2) else p.2)) := by
      rw [State.warmHunt_eq]
      cases s.huntRuns f with
      | true => rfl
      | false => simp
    have hdevices : (s.warmHunt f).link.devices.map (fun p => (p.1,
          if p.2.feeder ∈ rest then p.2.handedBack (s.warmHunt f).huntRuns else p.2)) = s.link.devices.map (fun p => (p.1,
        if p.2.feeder ∈ f :: rest then p.2.handedBack s.huntRuns else p.2)) := by
      rw [hone, List.map_map]
      refine List.map_congr_left fun p _ => congrArg (Prod.mk p.1) ?_
      dsimp only
      by_cases hp : p.2.feeder = f
      · have hfeeder : (p.2.handedBack s.huntRuns).feeder = f := by
          unfold Device.handedBack
          split <;> exact hp
        simp only [handedBack_owned hp]
        rw [if_neg (hfeeder ▸ hf), if_pos (List.mem_cons.mpr (.inl hp))]
      · have hother : (if s.huntRuns f then (if p.2.owned f then p.2.returned false else p.2) else p.2) = p.2 := by
          rw [if_neg (fun ho => hp (Device.owned_iff.mp ho).1), ite_self]
        have hmem : p.2.feeder ∈ f :: rest ↔ p.2.feeder ∈ rest := by simp [hp]
        simp only [hother]
        refine ite_of_iff hmem.symm ?_ rfl
        unfold Device.handedBack
        rw [hruns _ hp]
    rw [List.foldl_cons, List.foldl_cons, ih hrest, hdevices, State.warmHunt_eq]

theorem State.warmHunts_eq (s : State) : Ix4.all.foldl State.warmHunt s = { s with
    hunts := s.hunts.map (Option.map Hunt.reset)
    link := { s.link with devices := s.link.devices.map (fun p => (p.1, p.2.handedBack s.huntRuns)) } } := by
  have hdevices : s.link.devices.map (fun p => (p.1, if p.2.feeder ∈ Ix4.all then p.2.handedBack s.huntRuns else p.2)) =
      s.link.devices.map (fun p => (p.1, p.2.handedBack s.huntRuns)) :=
    List.map_congr_left fun p _ => congrArg (Prod.mk p.1) (if_pos (Ix4.mem_all p.2.feeder))
  rw [State.foldl_warmHunt (by decide), hdevices]
  rfl

/-! ## The derivations at the end (06 R125) -/

/-- The notice of a level that a derivation moves. -/
def Attention.tellLevel (old new : Feeder → Condition) (a : Attention) (f : Feeder) : Attention :=
  if (old f).level = (new f).level then a else a.give (.feeder f) (.levelChange (old f).level (new f).level)

theorem State.deriveQuietly_eq (s : State) (f : Feeder) : s.deriveQuietly f = { s with
    cond := s.cond.set f (s.conditionOf f)
    att := s.att.tellLevel s.cond.get s.conditionOf f
    link := { s.link with devices := s.link.devices.map (fun p => (p.1,
      if p.2.feeder = f then p.2.wished (s.conditionOf f).wish else p.2)) } } := by
  unfold State.deriveQuietly Attention.tellLevel
  dsimp only
  split <;> rfl

theorem Device.wished_feeder (w : Bool) (d : Device) : (d.wished w).feeder = d.feeder := by
  unfold Device.wished
  split <;> rfl

theorem State.foldl_deriveQuietly {fs : List Feeder} (hn : fs.Nodup) (s : State) : fs.foldl State.deriveQuietly s = { s with
    cond := fs.foldl (fun c f => c.set f (s.conditionOf f)) s.cond
    att := fs.foldl (Attention.tellLevel s.cond.get s.conditionOf) s.att
    link := { s.link with devices := s.link.devices.map (fun p => (p.1,
      if p.2.feeder ∈ fs then p.2.wished (s.conditionOf p.2.feeder).wish else p.2)) } } := by
  induction fs generalizing s with
  | nil =>
    have hsame : s.link.devices.map (fun p => (p.1,
        if p.2.feeder ∈ ([] : List Feeder) then p.2.wished (s.conditionOf p.2.feeder).wish else p.2)) = s.link.devices := by simp
    rw [hsame]
    rfl
  | cons f rest ih =>
    obtain ⟨hf, hrest⟩ := List.nodup_cons.mp hn
    have hcond : (s.deriveQuietly f).conditionOf = s.conditionOf := by
      rw [State.deriveQuietly_eq]
      rfl
    have hold (a : Attention) : rest.foldl (Attention.tellLevel (s.deriveQuietly f).cond.get s.conditionOf) a =
        rest.foldl (Attention.tellLevel s.cond.get s.conditionOf) a := by
      refine foldl_eq_of_mem (b := a) fun a g hg => ?_
      have hget : (s.deriveQuietly f).cond.get g = s.cond.get g := by
        rw [State.deriveQuietly_eq]
        exact Four.get_set_other _ _ (ne_of_mem_of_not_mem hg hf)
      unfold Attention.tellLevel
      rw [hget]
    have hdevices : (s.deriveQuietly f).link.devices.map (fun p => (p.1,
          if p.2.feeder ∈ rest then p.2.wished (s.conditionOf p.2.feeder).wish else p.2)) = s.link.devices.map (fun p => (p.1,
        if p.2.feeder ∈ f :: rest then p.2.wished (s.conditionOf p.2.feeder).wish else p.2)) := by
      rw [State.deriveQuietly_eq, List.map_map]
      refine List.map_congr_left fun p _ => congrArg (Prod.mk p.1) ?_
      dsimp only
      by_cases hp : p.2.feeder = f
      · have hfeeder (w : Bool) : (p.2.wished w).feeder = f := (Device.wished_feeder ..).trans hp
        simp only [hp, if_true, hfeeder]
        rw [if_neg hf, if_pos (List.mem_cons_self ..)]
      · have hmem : p.2.feeder ∈ f :: rest ↔ p.2.feeder ∈ rest := by simp [hp]
        simp only [hp, if_false]
        exact ite_of_iff hmem.symm rfl rfl
    rw [List.foldl_cons, List.foldl_cons, List.foldl_cons, ih hrest, hcond, hold, hdevices, State.deriveQuietly_eq]

theorem State.deriveQuietlies_eq (s : State) : Ix4.all.foldl State.deriveQuietly s = { s with
    cond := Four.build s.conditionOf
    att := Ix4.all.foldl (Attention.tellLevel s.cond.get s.conditionOf) s.att
    link := { s.link with devices := s.link.devices.map (fun p => (p.1, p.2.wished (s.conditionOf p.2.feeder).wish)) } } := by
  have hdevices : s.link.devices.map (fun p => (p.1,
      if p.2.feeder ∈ Ix4.all then p.2.wished (s.conditionOf p.2.feeder).wish else p.2)) =
      s.link.devices.map (fun p => (p.1, p.2.wished (s.conditionOf p.2.feeder).wish)) :=
    List.map_congr_left fun p _ => congrArg (Prod.mk p.1) (if_pos (Ix4.mem_all p.2.feeder))
  rw [State.foldl_deriveQuietly (by decide), hdevices]
  rfl

/-! ## The calendar at the end of a reset (05 R109) -/

theorem State.calendarAfterReset_unset {s : State} {n : Nat} (h : (Calendar.keepTime n s.cal).1.clock = none) :
    s.calendarAfterReset n = { s with cal := (Calendar.keepTime n s.cal).1 } := by
  unfold State.calendarAfterReset
  simp only [h]

/-- The calendar that a reset ends with, its levels derived. -/
def Calendar.afterReset (c : Calendar) (d : Option Carry) (k : Clock) : Calendar :=
  let c := c.evaluateAll.expireDeclarations k.minute ((d.map (·.yearWrap)).getD false) ⟨false, false⟩
  (if d.isSome then c.fire k else c).settleLevels

theorem State.calendarAfterReset_set {s : State} {n : Nat} {k : Clock} (h : (Calendar.keepTime n s.cal).1.clock = some k) :
    s.calendarAfterReset n = { s with
      cal := (Calendar.keepTime n s.cal).1.afterReset (Calendar.keepTime n s.cal).2 k
      tags := s.tags.filter (fun x => !x.expired k.minute)
      att := (losers (s.tags.filter (Tag.expired k.minute))).foldl (Attention.tellExpired (s.tags.filter (Tag.expired k.minute))) s.att } := by
  unfold State.calendarAfterReset
  simp only [h]
  rw [State.expireTags_eq rfl]
  rfl

/-- The pending notices at the end of a reset (04 R81). -/
theorem Attention.gains_tellExpired {a b : Attention} (h : a.gains NoticeKind.ofReset b) (gone : List Tag) (f : Feeder) :
    a.gains NoticeKind.ofReset (b.tellExpired gone f) := by
  unfold Attention.tellExpired
  split
  · exact h.give _ (.inr rfl)
  · exact h

theorem Attention.gains_tellLevel {a b : Attention} (h : a.gains NoticeKind.ofReset b) (old new : Feeder → Condition) (f : Feeder) :
    a.gains NoticeKind.ofReset (b.tellLevel old new f) := by
  unfold Attention.tellLevel
  split
  · exact h
  · exact h.give _ (.inl rfl)

/-! ## The warm reset (O15) -/

theorem State.warmBlocks_eq (s : State) (pins : Pins) : s.warmBlocks pins = { s with
    contacts := pins.contacts
    backup := false
    sample := Four.fill coldSample
    engine := Four.fill coldEngine
    store := s.store.warm
    seq := pins.contacts.map (resetSeq .warmReset)
    inputs := s.inputs.map Inputs.warm
    latch := false
    hunts := s.hunts.map (Option.map Hunt.reset)
    link := Link.warm { s.link with devices := s.link.devices.map (fun p => (p.1, p.2.handedBack s.huntRuns)) } pins.carrier
    att := s.att.warm } := by
  unfold State.warmBlocks
  rw [State.warmHunts_eq]

/-- The part at the end of a warm reset, from the part whose calendar has been kept (06 R125, 11 R204). -/
theorem State.warmReset_eq {s v : State} {pins : Pins} (hv : v = (s.warmBlocks pins).calendarAfterReset pins.ticks) (kind : StartKind) :
    s.warmReset kind pins = { v with
      cond := Four.build v.conditionOf
      att := Ix4.all.foldl (Attention.tellLevel v.cond.get v.conditionOf) v.att
      link := { v.link with devices := v.link.devices.map (fun p => (p.1, p.2.wished (v.conditionOf p.2.feeder).wish)) }
      port := v.port.warm kind pins.selected } := by
  unfold State.warmReset
  rw [← hv]
  dsimp only
  rw [State.deriveQuietlies_eq]

theorem State.calendarAfterReset_rest (s : State) (n : Nat) : ∃ c ts a, s.calendarAfterReset n = { s with cal := c, tags := ts, att := a }
    ∧ s.att.gains NoticeKind.ofReset a := by
  cases h : (Calendar.keepTime n s.cal).1.clock with
  | none => exact ⟨_, s.tags, s.att, State.calendarAfterReset_unset h, .refl⟩
  | some k =>
    exact ⟨_, _, _, State.calendarAfterReset_set h, Attention.gains.fold (fun b f hb => Attention.gains_tellExpired hb _ f) .refl _⟩

/-- A device after a warm reset (08 R155, 09 R181, 06 R121). -/
theorem Device.afterReset_eq (runs : Feeder → Bool) (wish : Feeder → Bool) (d : Device) :
    (d.handedBack runs).cleared.wished (wish (d.handedBack runs).cleared.feeder) = {
      feeder := d.feeder
      kind := d.kind
      relay := d.relay
      desired := if d.owner = .hunt ∧ runs d.feeder = true then
          if (d.inFlight.map (fun o => o.code.position)).getD false = true then none else d.ack
        else d.desired
      owner := if d.owner = .hunt ∧ runs d.feeder = true then .host else d.owner
      ack := none
      desiredBlock := if d.kind = .recloser then some (if wish d.feeder then .blocked else .unblocked) else d.desiredBlock
      ackBlock := none
      posHeld := false
      blockHeld := false
      inFlight := none
      lastTag := none
      reach := .reachable
      probe := none
      probeDue := false } := by
  have hfeeder : (d.handedBack runs).cleared.feeder = d.feeder := by
    unfold Device.handedBack
    split <;> rfl
  rw [hfeeder]
  unfold Device.handedBack
  by_cases hb : d.owner = .hunt ∧ runs d.feeder = true
  · simp only [if_pos hb]
    by_cases hk : d.kind = .recloser
    · simp only [if_pos hk]
      exact if_pos hk
    · simp only [if_neg hk]
      exact if_neg hk
  · simp only [if_neg hb]
    by_cases hk : d.kind = .recloser
    · simp only [if_pos hk]
      exact if_pos hk
    · simp only [if_neg hk]
      exact if_neg hk

/-- The slots that a warm reset clears (05 R100, R109). -/
theorem reset_slots (now : Minute) (wrap : Bool) (y : Option Declaration) : unreached now wrap false y = match y with
    | some ⟨l, some u⟩ => if wrap = true ∨ u.le now = true then none else some ⟨l, some u⟩
    | other => other := by
  rcases y with - | ⟨l, - | u⟩
  · rfl
  · rfl
  · exact ite_of_iff (by simp [Minute.le]) rfl rfl

/-- The calendar at the end of a warm reset, field by field (05 R109). -/
theorem Calendar.afterReset_eq {c t : Calendar} {d : Option Carry} {k : Clock} (ht : t = c.afterReset d k)
    {x : Pair (Option Declaration)} (hx : x = (c.expireDeclarations k.minute ((d.map (·.yearWrap)).getD false) ⟨false, false⟩).declarations) :
    t = { c with
      active := Four.build c.activity
      floors := ⟨t.floorOf .a, t.floorOf .b⟩
      declarations := if d = none then x else (Machine.fire k.minute k.weekday c.schedule x).2
      schedule := if d = none then c.schedule else (Machine.fire k.minute k.weekday c.schedule x).1
      levels := ⟨max (t.floorOf .a) ((t.declarations.a.map (·.level)).getD 0),
        max (t.floorOf .b) ((t.declarations.b.map (·.level)).getD 0)⟩ } := by
  subst ht hx
  cases d <;> rfl

/-- Settles O15. -/
theorem warmResetByPinLeaves : Obligations.WarmResetByPinLeaves := by
  refine ⟨fun pins s c d hkeep => ?_, fun n c => ⟨Calendar.keepTime_ticked n c, Calendar.keepTime_isSome n c, Calendar.keepTime_wraps n c⟩⟩
  obtain ⟨v, hv⟩ : ∃ v, v = (s.warmBlocks pins).calendarAfterReset pins.ticks := ⟨_, rfl⟩
  obtain ⟨t, ht⟩ : ∃ t, t = s.warmReset .warmPin pins := ⟨_, rfl⟩
  have hw := s.warmBlocks_eq pins
  obtain ⟨e, ts, a, hrest, hgains⟩ := (s.warmBlocks pins).calendarAfterReset_rest pins.ticks
  rw [← hv] at hrest
  have htv := ht.trans (State.warmReset_eq hv .warmPin)
  have hcond (f : Feeder) : t.cond.get f = v.conditionOf f := by
    rw [htv]
    exact Four.get_build ..
  have hatt : s.att.warm.gains NoticeKind.ofReset t.att := by
    have hstart : (s.warmBlocks pins).att = s.att.warm := (congrArg State.att hw :)
    have hva : v.att = a := (congrArg State.att hrest :)
    rw [htv]
    refine Attention.gains.fold (fun b f hb => Attention.gains_tellLevel hb _ _ f) ?_ _
    rwa [hva, ← hstart]
  obtain ⟨hattRest, hnotices⟩ := hatt
  have hblocks : t = { s with
      contacts := pins.contacts
      backup := false
      sample := Four.fill coldSample
      engine := Four.fill coldEngine
      store := s.store.warm
      seq := pins.contacts.map (resetSeq .warmReset)
      tags := v.tags
      cal := v.cal
      inputs := s.inputs.map Inputs.warm
      latch := false
      cond := t.cond
      hunts := s.hunts.map (Option.map Hunt.reset)
      link := { s.link with
        devices := (Table.mapAll (s.link.devices.map (fun p => (p.1, p.2.handedBack s.huntRuns))) (fun _ d => d.cleared)).map
          (fun p => (p.1, p.2.wished (v.conditionOf p.2.feeder).wish))
        sending := none
        carrier := pins.carrier
        clearWaits := true
        resends := [] }
      att := t.att
      port := s.port.warm .warmPin pins.selected } := by
    rw [htv, hrest, hw]
    rfl
  have hc : c = (Calendar.keepTime pins.ticks (s.warmBlocks pins).cal).1 := by
    rw [hw, ← hkeep]
  have hd : d = (Calendar.keepTime pins.ticks (s.warmBlocks pins).cal).2 := by
    rw [hw, ← hkeep]
  have huntimed : c.untimed = s.cal.untimed := by
    rw [hc, hw]
    exact Calendar.keepTime_untimed ..
  refine ⟨t, ht ▸ rfl, ?_, ?_, ?_, ?_, ?_, ?_, fun f => ?_, fun hk => ?_, fun k hk => ?_, ?_, fun f => ?_, fun f => ?_, ?_, fun f => ?_,
    ?_, ?_, ?_, ?_, ?_, ?_, ?_, ?_, (congrArg Attention.mask hattRest :), (congrArg Attention.levels hattRest :),
    (congrArg Attention.period hattRest :), (congrArg Attention.action hattRest :), (congrArg Attention.expiries hattRest :),
    (congrArg Attention.timer hattRest :), fun n hn => (hnotices n hn).resolve_right List.not_mem_nil, (congrArg State.port hblocks :)⟩
  · exact (congrArg State.pending hblocks :)
  · exact congrArg State.contacts hblocks
  · exact congrArg State.backup hblocks
  · exact congrArg State.sample hblocks
  · exact congrArg State.engine hblocks
  · exact congrArg State.store hblocks
  · exact (congrArg (·.seq.get f) hblocks).trans (Four.get_map ..)
  · rw [hc] at hk
    have hunset := hv.trans (State.calendarAfterReset_unset hk)
    have htags : v.tags = s.tags := by
      rw [hunset, hw]
    have hcal : v.cal = c := by
      rw [hunset, hc]
    exact ⟨(congrArg State.tags hblocks).trans htags, (congrArg State.cal hblocks).trans hcal⟩
  · have hset := hv.trans (State.calendarAfterReset_set (hc ▸ hk))
    rw [← hc, ← hd] at hset
    have htags : v.tags = s.tags.filter (fun x => !x.expired k.minute) := by
      rw [hset, hw]
    have hcal : t.cal = c.afterReset d k := by
      rw [hblocks, hset]
    obtain ⟨x, hx⟩ : ∃ x, x = (c.expireDeclarations k.minute ((d.map (·.yearWrap)).getD false) ⟨false, false⟩).declarations :=
      ⟨_, rfl⟩
    have hwindows : c.windows = s.cal.windows := congrArg (·.1) huntimed
    have hslots : c.declarations = s.cal.declarations := congrArg (·.2.1) huntimed
    have hschedule : c.schedule = s.cal.schedule := congrArg (·.2.2) huntimed
    refine ⟨?_, x, fun y => ?_, ?_⟩
    · refine (congrArg State.tags hblocks).trans (htags.trans (List.filter_congr fun x _ => ?_))
      unfold Tag.expired
      cases x.expiry <;> simp
    · rw [hx, expireDeclarations_slots, hslots]
      cases y <;> exact reset_slots ..
    · have hactive : c.activity = fun i => match s.cal.windows.get i with
          | some w => w.enabled && w.covers k.minute.year k.minute.month k.minute.day
          | none => false := by
        rw [← hwindows]
        exact funext (Calendar.activity_set hk)
      have hall := Calendar.afterReset_eq hcal hx
      rw [hactive, hschedule] at hall
      exact hall
  · exact congrArg State.latch hblocks
  · exact (congrArg (·.inputs.get f) hblocks).trans (Four.get_map ..)
  · rw [hcond f, htv]
    rfl
  · exact (congrArg State.sections hblocks :)
  · refine (congrArg (·.hunts.get f) hblocks).trans ((Four.get_map ..).trans ?_)
    cases s.hunts.get f <;> rfl
  · exact congrArg (·.link.sending) hblocks
  · exact congrArg (·.link.carrier) hblocks
  · exact congrArg (·.link.clearWaits) hblocks
  · exact congrArg (·.link.resends) hblocks
  · exact congrArg (·.link.limit) hblocks
  · exact congrArg (·.link.tagCounter) hblocks
  · exact congrArg (·.link.lastChosen) hblocks
  · refine (congrArg (·.link.devices) hblocks).trans ?_
    simp only [hcond]
    unfold Table.mapAll
    rw [List.map_map, List.map_map]
    exact List.map_congr_left fun p _ => congrArg (Prod.mk p.1) (Device.afterReset_eq s.huntRuns (fun f => (v.conditionOf f).wish) p.2)

end Sys2Proof.Machine
